-- ==== Sys2Proof/Word.lean ====
section
/-! DEFINITION. The word types of the block: the byte of the wire and of the checksum (R9) and the 16-bit word of the
payload and of the host read port (R9). -/

namespace Sys2Proof

/-- A wire byte, the state code, the checksum accumulator: 8 bits (R9). -/
abbrev Byte := BitVec 8

/-- A count, a raw density, a raw temperature or humidity word, the host read data: 16 bits (R9). -/
abbrev Half := BitVec 16

end Sys2Proof
end

