-- ==== Sys2Proof/Syntax.lean ====
section
/-! DEFINITION. The instructions of the block: one constructor per row of the opcode table, the eight legal host
command words (R72) and the seven wire commands (R75). -/

namespace Sys2Proof

/-- A MeasurementMode (R29). -/
inductive Mode where
  | off
  | fast
  | medium
  | slow
  deriving DecidableEq, Repr

/-- The three bytes of a command frame in the order they are sent (R74): address, opcode, checksum. -/
structure Frame where
  b0 : Byte
  b1 : Byte
  b2 : Byte
  deriving DecidableEq, Repr

/-- One constructor per row of the opcode table. A host word has no operand besides the mode its row fixes (R72). A wire
command carries the two fields of its row: the address byte `A` and the checksum byte `C` (R74, R87). -/
inductive Instr where
  | getstate
  | sleep
  | wake
  | pmOff
  | pmFast
  | pmMedium
  | pmSlow
  | th
  | cmdState (a c : Byte)
  | cmdToggle (a c : Byte)
  | cmdTh (a c : Byte)
  | cmdPmFast (a c : Byte)
  | cmdPmMedium (a c : Byte)
  | cmdPmSlow (a c : Byte)
  | cmdPmOff (a c : Byte)
  deriving DecidableEq, Repr

end Sys2Proof
end

