-- ==== Sys2Proof/Decode.lean ====
section
/-! DEFINITION. The two encodings of the block (30_encoding.md): the 8-bit host command word (R70 to R72) and the 3-byte
command frame (R74, R75, R87). The decoder is total and rejects by name; the encoder is written from the same tables. -/

namespace Sys2Proof

/-- Why a byte sequence is no instruction. -/
inductive DecodeError where
  /-- A host word with a non-zero reserved field, bits [7:6] (R70, R72). -/
  | reservedBits (w : Byte)
  /-- A host word with a non-zero MODE whose OP is not PM (R70, R72). -/
  | modeNotAllowed (w : Byte)
  /-- A host word whose OP is 0x0 or 0x6..0xF (R71, R72). -/
  | unassignedOp (w : Byte)
  /-- A 3-byte frame whose opcode the block never sends (R75). -/
  | unassignedOpcode (o : Byte)
  /-- Neither one byte (a host word) nor three (a frame): R85. -/
  | badLength (n : Nat)
  deriving DecidableEq, Repr

/-! The wire opcodes (R75). -/

def opcState : Byte := 0x16
def opcToggle : Byte := 0x15
def opcTh : Byte := 0x14
def opcFast : Byte := 0x11
def opcMedium : Byte := 0x12
def opcSlow : Byte := 0x13
def opcOff : Byte := 0x00

/-- The 2-bit code of a mode (R29). -/
def Mode.code : Mode → BitVec 2
  | .off => 0
  | .fast => 1
  | .medium => 2
  | .slow => 3

/-- The mode a 2-bit code stands for (R29). -/
def Mode.ofCode (m : BitVec 2) : Mode :=
  if m = 0 then .off else if m = 1 then .fast else if m = 2 then .medium else .slow

/-- Field OP of a host word, bits [3:0] (R70). -/
def hostOp (w : Byte) : BitVec 4 := w.extractLsb' 0 4

/-- Field MODE of a host word, bits [5:4] (R70). -/
def hostMode (w : Byte) : BitVec 2 := w.extractLsb' 4 2

/-- The reserved field of a host word, bits [7:6] (R70). -/
def hostReserved (w : Byte) : BitVec 2 := w.extractLsb' 6 2

/-- A host word from its fields OP and MODE, the reserved field 0 (R70). -/
def hostWord (op : BitVec 4) (m : BitVec 2) : Byte :=
  (op.setWidth 8) ||| ((m.setWidth 8) <<< 4)

/-- The particulate host word of a mode (R72). -/
def Instr.pmWord : Mode → Instr
  | .off => .pmOff
  | .fast => .pmFast
  | .medium => .pmMedium
  | .slow => .pmSlow

/-- A host word whose OP allows no MODE (R70). -/
def plainHostWord (w : Byte) (i : Instr) : Except DecodeError Instr :=
  if hostMode w = 0 then .ok i else .error (.modeNotAllowed w)

/-- The host word decoder: the eight words of R72 and no other (R87). -/
def decodeHost (w : Byte) : Except DecodeError Instr :=
  if hostReserved w ≠ 0 then .error (.reservedBits w)
  else if hostOp w = 1 then plainHostWord w .getstate
  else if hostOp w = 2 then plainHostWord w .sleep
  else if hostOp w = 3 then plainHostWord w .wake
  else if hostOp w = 4 then .ok (.pmWord (.ofCode (hostMode w)))
  else if hostOp w = 5 then plainHostWord w .th
  else .error (.unassignedOp w)

/-- The frame decoder: the opcode byte alone selects the row (mask 0x00FF00, R87); A and C are fields. -/
def decodeWire (f : Frame) : Except DecodeError Instr :=
  if f.b1 = opcState then .ok (.cmdState f.b0 f.b2)
  else if f.b1 = opcToggle then .ok (.cmdToggle f.b0 f.b2)
  else if f.b1 = opcTh then .ok (.cmdTh f.b0 f.b2)
  else if f.b1 = opcFast then .ok (.cmdPmFast f.b0 f.b2)
  else if f.b1 = opcMedium then .ok (.cmdPmMedium f.b0 f.b2)
  else if f.b1 = opcSlow then .ok (.cmdPmSlow f.b0 f.b2)
  else if f.b1 = opcOff then .ok (.cmdPmOff f.b0 f.b2)
  else .error (.unassignedOpcode f.b1)

/-- The decoder on any bytes: one byte is a host word, three are a command frame (R85). -/
def decode : List Byte → Except DecodeError Instr
  | [w] => decodeHost w
  | [a, o, c] => decodeWire ⟨a, o, c⟩
  | l => .error (.badLength l.length)

/-- The frame of a wire command: byte 0 the address, byte 1 the opcode, byte 2 the checksum (R74). -/
def Instr.wireFrame : Instr → Option Frame
  | .cmdState a c => some ⟨a, opcState, c⟩
  | .cmdToggle a c => some ⟨a, opcToggle, c⟩
  | .cmdTh a c => some ⟨a, opcTh, c⟩
  | .cmdPmFast a c => some ⟨a, opcFast, c⟩
  | .cmdPmMedium a c => some ⟨a, opcMedium, c⟩
  | .cmdPmSlow a c => some ⟨a, opcSlow, c⟩
  | .cmdPmOff a c => some ⟨a, opcOff, c⟩
  | .getstate | .sleep | .wake | .pmOff | .pmFast | .pmMedium | .pmSlow | .th => none

/-- The bytes of a frame in the order they are sent (R74). -/
def Frame.bytes (f : Frame) : List Byte := [f.b0, f.b1, f.b2]

/-- The bytes of an instruction: a host word from its fields (R70, R71), a wire command as its frame (R74). -/
def encode : Instr → List Byte
  | .getstate => [hostWord 1 0]
  | .sleep => [hostWord 2 0]
  | .wake => [hostWord 3 0]
  | .pmOff => [hostWord 4 Mode.off.code]
  | .pmFast => [hostWord 4 Mode.fast.code]
  | .pmMedium => [hostWord 4 Mode.medium.code]
  | .pmSlow => [hostWord 4 Mode.slow.code]
  | .th => [hostWord 5 0]
  | .cmdState a c => (Frame.mk a opcState c).bytes
  | .cmdToggle a c => (Frame.mk a opcToggle c).bytes
  | .cmdTh a c => (Frame.mk a opcTh c).bytes
  | .cmdPmFast a c => (Frame.mk a opcFast c).bytes
  | .cmdPmMedium a c => (Frame.mk a opcMedium c).bytes
  | .cmdPmSlow a c => (Frame.mk a opcSlow c).bytes
  | .cmdPmOff a c => (Frame.mk a opcOff c).bytes

/-- The frame a 24-bit pattern of the opcode table stands for: byte 0 in bits [23:16] (R74). -/
def frameOfWord (w : Nat) : Frame :=
  ⟨BitVec.ofNat 8 (w / 65536), BitVec.ofNat 8 (w / 256), BitVec.ofNat 8 w⟩

/-- The instruction the decoder reads from an opcode-table word: 8 bits are a host word, 24 bits a frame. -/
def decodeTableWord (nbits w : Nat) : Option Instr :=
  if nbits = 8 then (decode [BitVec.ofNat 8 w]).toOption
  else if nbits = 24 then (decode (frameOfWord w).bytes).toOption
  else none

end Sys2Proof
end

