-- ==== Sys2Proof/Config.lean ====
section
/-! DEFINITION. What an implementation or the world outside the block fixes: the open parameters of R8, R61 and R131 and
the free values of the transport's inputs. Constants without a body are free: no proof can see their value. -/

namespace Sys2Proof

/-- OPEN parameter DEV_ADDR (R8, D2): the level of the port `dev_addr` as the system drives it at boot (R235). -/
opaque Config.devAddr : Byte

/-- The oracle's choice of `tx_ready` at the `n`-th micro-step that no script describes (R100, R101; log 3). -/
opaque Config.freeTxReady : Nat → Bool

/-- The bytes the oracle appends to the receive buffer before the `n`-th micro-step that no script describes
(R100, I2; log 3). -/
opaque Config.freeRx : Nat → List Byte

/-- OPEN parameter F_CLK (R8, D1): the frequency of an implementation's delay timer; no rule reads it. -/
opaque Config.fClk : Nat

/-- OPEN parameter HOST_BASE (R61, D6): where the host port sits on a bus; no rule reads it. -/
opaque Config.hostBase : Nat

/-- T_BYTE (R8, R110): the least wait after each command byte, in milliseconds. -/
def Config.tByteMs : Nat := 1

/-- T_SETTLE (R8, R110): the least wait before a drain, in milliseconds. -/
def Config.tSettleMs : Nat := 350

/-- T_WAKE (R8, R110): the least wait after a wake toggle, in milliseconds. -/
def Config.tWakeMs : Nat := 1000

/-- OPEN parameter LABEL_EN (R131, D31): the label of flag `i` when it is set. -/
opaque Config.labelEn : Fin 8 → String

/-- OPEN parameter LABEL_DIS (R131, D31): the label of flag `i` when it is clear. -/
opaque Config.labelDis : Fin 8 → String

/-- OPEN parameter REPORT_SEP (R131, D31): what stands between two lines of a joined report. -/
opaque Config.reportSep : String

/-- OPEN parameter TH_CONVERT (R188, D22): the temperature and humidity an implementation's host computes. It depends
on `T_RAW` and `H_RAW` alone. -/
opaque Config.thConvert : Half → Half → Rat × Rat

/-- OPEN parameter TH_RAW_SIGNED (R188, D22): whether the host reads `T_RAW` and `H_RAW` as signed. -/
opaque Config.thRawSigned : Bool

end Sys2Proof
end

