-- ==== Sys2Proof/Machine/State.lean ====
section
/-! DEFINITION. Every piece of state the spec gives the block (10_state.md R21 to R42), the transport's receive buffer and
the input port levels it observes (R43, R73), and the model's own record of the world: the script of coming input
samples, the transmit history (R101) and the count of completion events (R207). -/

namespace Sys2Proof.Machine

/-- FSM control states (R37). -/
inductive Fsm where
  | idle
  | tx
  | gap
  | settle
  | drain
  | eval
  deriving DecidableEq, Repr

/-- Which exchange of a host operation is in progress (R38). -/
inductive Phase where
  | refA
  | main
  | refB
  deriving DecidableEq, Repr

/-- The latched host operation `op_l` (R39). -/
inductive HostOp where
  | getState
  | sleep
  | wake
  | pm
  | th
  deriving DecidableEq, Repr

/-- Which wait the SETTLE state takes (R41). -/
inductive WaitSel where
  | settle
  | wake
  deriving DecidableEq, Repr

/-- The outcome codes 0 to 6 of R203; code 7 is never written (R203, I17) and has no name here. -/
inductive OutcomeCode where
  | none
  | ok
  | already
  | gated
  | chkAbort
  | busyCode
  | chkRequery
  deriving DecidableEq, Repr

/-- The levels of the input ports at one micro-step (R73) and the bytes that have arrived in the transport's receive
buffer before it (R100). -/
structure Sample where
  /-- `rst` -/
  rst : Bool
  /-- `hcmd` where `hcmd_valid` = 1, nothing where it is 0 -/
  hcmd : Option Byte
  /-- `dev_addr` -/
  devAddr : Byte
  /-- `tx_ready` -/
  txReady : Bool
  /-- received bytes, the oldest first -/
  rxIn : List Byte
  deriving DecidableEq, Repr

/-- The response buffer RESP (R50, R51): its bytes that are not 0x00, as address and byte pairs, addresses rising. -/
abbrev Memory := List Host.Cell

/-- The state of the machine. -/
structure State where
  /-- BUSY (R33) -/
  busy : Bool
  /-- DONE (R33, R208) -/
  done : Bool
  /-- CHK_ERR (R26) -/
  chkErr : Bool
  /-- NO_MEAS (R27) -/
  noMeas : Bool
  /-- REPORT_CHK_INVALID (R28) -/
  reportChkInvalid : Bool
  /-- ILLEGAL, sticky (R34) -/
  illegal : Bool
  /-- OVERRUN, sticky (R34) -/
  overrun : Bool
  /-- MODE_CUR (R29) -/
  modeCur : Mode
  /-- OUTCOME (R35) -/
  outcome : OutcomeCode
  /-- STATE_CODE, whose bits are the 8 flags (R23 to R25) -/
  stateCode : Byte
  /-- PM1_CNT (R30) -/
  pm1Cnt : Half
  /-- PM1_DEN_RAW (R30) -/
  pm1DenRaw : Half
  /-- PM25_CNT (R30) -/
  pm25Cnt : Half
  /-- PM25_DEN_RAW (R30) -/
  pm25DenRaw : Half
  /-- PM10_CNT (R30) -/
  pm10Cnt : Half
  /-- PM10_DEN_RAW (R30) -/
  pm10DenRaw : Half
  /-- T_RAW (R31) -/
  tRaw : Half
  /-- H_RAW (R31) -/
  hRaw : Half
  /-- RESP[0..15] (R32, R51) -/
  resp : Memory
  /-- RESP_LEN (R32, R53) -/
  respLen : BitVec 5
  /-- fsm (R37) -/
  fsm : Fsm
  /-- phase (R38) -/
  phase : Phase
  /-- op_l (R39) -/
  opL : HostOp
  /-- mode_l (R39) -/
  modeL : Mode
  /-- addr_l (R39) -/
  addrL : Byte
  /-- frame[0..2] (R40) -/
  frame : Frame
  /-- txi (R40) -/
  txi : Fin 3
  /-- wait_sel (R41) -/
  waitSel : WaitSel
  /-- drain_en (R41) -/
  drainEn : Bool
  /-- SUM (R42) -/
  sum : Byte
  /-- the transport's receive buffer, the oldest byte first (R43, R100): outside the block -/
  rxBuf : List Byte
  /-- the level of `dev_addr` at the current micro-step (R73): outside the block -/
  devAddr : Byte
  /-- the level of `tx_ready` at the current micro-step (R73): outside the block -/
  txReady : Bool
  /-- the input samples of the coming micro-steps (log 2): the model's own -/
  env : List Sample
  /-- how many free samples have been drawn (log 3): the model's own -/
  draws : Nat
  /-- the transmit history, the oldest byte first (R101, log 6): the model's own -/
  txHist : List Byte
  /-- how many `irq_done` events have been emitted (R207, log 6): the model's own -/
  irqCount : Nat
  deriving DecidableEq, Repr

/-- Why the machine stops. The block itself has no trap (R201). -/
inductive Fault where
  /-- Raised by EVAL at a pair (op_l, phase) that R150 marks as one that cannot occur, and by an exchange of the MAIN
  phase of GETSTATE, for which R93 gives no opcode. Safe: the spec gives no effect there, and no step from a state that
  meets `Safety.Inv` raises it (log 10). -/
  | noSuchPhase
  deriving DecidableEq, Repr

/-- Why an instruction has no meaning. -/
inductive Refusal where
  /-- Raised by an arm of `exec` for an instruction without a meaning. Safe. No arm raises it now. -/
  | notModelled (mnemonic : String)
  deriving DecidableEq, Repr

/-- The machine right after reset (R45, R230), with nothing scripted and nothing received. The last seven fields are
no state of the block (log 2 to log 6). -/
def State.reset : State where
  busy := false
  done := false
  chkErr := false
  noMeas := true
  reportChkInvalid := false
  illegal := false
  overrun := false
  modeCur := .off
  outcome := .none
  stateCode := 0x00
  pm1Cnt := 0x0000
  pm1DenRaw := 0x0000
  pm25Cnt := 0x0000
  pm25DenRaw := 0x0000
  pm10Cnt := 0x0000
  pm10DenRaw := 0x0000
  tRaw := 0x0000
  hRaw := 0x0000
  resp := []
  respLen := 0
  fsm := .idle
  phase := .refA
  opL := .getState
  modeL := .off
  addrL := 0x00
  frame := ⟨0x00, 0x00, 0x00⟩
  txi := 0
  waitSel := .settle
  drainEn := true
  sum := 0x00
  rxBuf := []
  devAddr := Config.devAddr
  txReady := false
  env := []
  draws := 0
  txHist := []
  irqCount := 0

end Sys2Proof.Machine
end

