-- ==== Sys2Proof/Machine/Memory.lean ====
section
/-! DEFINITION. Memory operations on the response buffer RESP[0..15] (R50 to R52), in one canonical list form. -/

namespace Sys2Proof.Machine

/-- What a byte that the list does not name reads as: the reset and cleared value 0x00 (R45, R52). -/
def Memory.unlisted : Byte := 0x00

/-- How many bytes the response buffer has, RESP_CAP (R7, R50). -/
def Memory.size : Nat := 16

/-- The canonical form from address `lo` on: addresses strictly rising and below the size, no entry that reads as an
unlisted one. -/
def Memory.wfFrom (lo : Nat) : Memory → Bool
  | [] => true
  | (a, v) :: m => decide (lo ≤ a) && decide (a < Memory.size) && (v != Memory.unlisted) && Memory.wfFrom (a + 1) m

/-- The canonical form of the response buffer. -/
def Memory.wf (m : Memory) : Bool := Memory.wfFrom 0 m

/-- `MemRead(RESP, i, 1)` (R51). -/
def Memory.read : Memory → Nat → Byte
  | [], _ => Memory.unlisted
  | (a, v) :: m, i => if a = i then v else Memory.read m i

/-- A byte put before the entries of higher addresses, unless it reads as an unlisted one. -/
def Memory.consCell (i : Nat) (v : Byte) (m : Memory) : Memory :=
  if v = Memory.unlisted then m else (i, v) :: m

/-- `MemWrite(RESP, i, 1, v)` (R51). -/
def Memory.write : Memory → Nat → Byte → Memory
  | [], i, v => Memory.consCell i v []
  | (a, w) :: m, i, v =>
    if a < i then (a, w) :: Memory.write m i v
    else if a = i then Memory.consCell i v m
    else Memory.consCell i v ((a, w) :: m)

/-- The sum of the first `n` bytes mod 256 (R115). -/
def Memory.sumTo (m : Memory) : Nat → Byte
  | 0 => 0
  | n + 1 => m.sumTo n + m.read n

end Sys2Proof.Machine
end

