-- ==== Sys2Proof/Machine/Operands.lean ====
section
/-! DEFINITION. Operand forms: the fields of a response (R54), the command builder (R90 to R95) and the operand assembly
of R84. -/

namespace Sys2Proof.Machine

/-- `BE16(hi, lo)` (R12). -/
def be16 (hi lo : Byte) : Half := hi.setWidth 16 * 256 + lo.setWidth 16

/-- STATE_IDX (R7): where the state byte of every response stands. -/
def stateIdx : Nat := 2

/-- `RESP[2]`, the candidate state byte (R128). -/
def respState (s : State) : Byte := s.resp.read stateIdx

/-- The big-endian word of a response at offset `k` (R55). -/
def respWord (s : State) (k : Nat) : Half := be16 (s.resp.read k) (s.resp.read (k + 1))

/-- Offsets of the three particulate windows (R180). -/
def pm1Window : Nat := 3
def pm25Window : Nat := 7
def pm10Window : Nat := 11

/-- The count of a window, its bytes 0 and 1 (R180). -/
def windowCnt (s : State) (w : Nat) : Half := respWord s w

/-- The raw density of a window, its bytes 2 and 3 (R180). -/
def windowDenRaw (s : State) (w : Nat) : Half := respWord s (w + 2)

/-- Offsets of the raw temperature and humidity words (R54, R185). -/
def tOffset : Nat := 3
def hOffset : Nat := 5

/-- DEN_DIV (R7). -/
def denDiv : Half := 10

/-- The density view `raw div 10`, truncating (R182). -/
def density (raw : Half) : Half := raw / denDiv

/-- `chk(address, opcode) = (0x100 − opcode − address) mod 0x100` in 8-bit arithmetic (R91). -/
def chk (address opcode : Byte) : Byte := 0 - opcode - address

/-- `buildCommand(address, opcode)` (R90). -/
def buildCommand (address opcode : Byte) : Frame := ⟨address, opcode, chk address opcode⟩

/-- `opc_pm(m)` (R94). -/
def opcPm : Mode → Byte
  | .off => opcOff
  | .fast => opcFast
  | .medium => opcMedium
  | .slow => opcSlow

/-- `opc(op_l, phase, mode_l)` (R93). GETSTATE has no MAIN phase, so no opcode there. -/
def opc : HostOp → Phase → Mode → Option Byte
  | _, .refA, _ => some opcState
  | _, .refB, _ => some opcState
  | .getState, .main, _ => none
  | .sleep, .main, _ => some opcToggle
  | .wake, .main, _ => some opcToggle
  | .pm, .main, m => some (opcPm m)
  | .th, .main, _ => some opcTh

/-- Byte `i` of a frame (R40, R74). -/
def frameByte (f : Frame) : Fin 3 → Byte
  | 0 => f.b0
  | 1 => f.b1
  | 2 => f.b2

/-- Whether an exchange is the wake toggle, the only one with the long wait and without a drain (R148, R111). -/
def isWakeToggle (op : HostOp) (ph : Phase) : Bool := op == .wake && ph == .main

/-- `wait_sel` of an exchange (R148). -/
def waitSelOf (op : HostOp) (ph : Phase) : WaitSel := if isWakeToggle op ph then .wake else .settle

/-- `drain_en` of an exchange (R148). -/
def drainEnOf (op : HostOp) (ph : Phase) : Bool := !isWakeToggle op ph

end Sys2Proof.Machine
end

