-- ==== Sys2Proof/Machine/Flags.lean ====
section
/-! DEFINITION. The 8-flag extractor and what reads it (R24, R126, R161 to R163), the forced state (R127), the checksum
verdict (R117), and the packing of STATUS (R22). -/

namespace Sys2Proof.Machine

/-- The 8 state flags in their fixed order (R24, R130). -/
inductive StateFlag where
  | sleep
  | degraded
  | notReady
  | highHum
  | trhErr
  | fanErr
  | memErr
  | laserErr
  deriving DecidableEq, Repr

/-- The index of a flag (R24). -/
def flagIndex : StateFlag → Fin 8
  | .sleep => 0
  | .degraded => 1
  | .notReady => 2
  | .highHum => 3
  | .trhErr => 4
  | .fanErr => 5
  | .memErr => 6
  | .laserErr => 7

/-- All flags, index 0 first (R130). -/
def allFlags : List StateFlag :=
  [.sleep, .degraded, .notReady, .highHum, .trhErr, .fanErr, .memErr, .laserErr]

/-- `mask_i = 1 << i` (R24, R126). -/
def flagMask (f : StateFlag) : Byte := 1 <<< (flagIndex f).val

/-- `flag_i(s) = ((mask_i & s) != 0)` (R126). -/
def flag (f : StateFlag) (code : Byte) : Bool := flagMask f &&& code != 0

/-- FORCED_STATE (R7). -/
def forcedState : Byte := 0xFF

/-- The state value decodeState stores: the checksum-failure override (R127). -/
def decodedState (chkErr : Bool) (b : Byte) : Byte := if chkErr then forcedState else b

/-- The verdict of the checksum validator on the accumulator (R117). -/
def checksumVerdict (sum : Byte) : Bool := sum != 0

/-- The particulate gate (R161, R155). -/
def gatePm (code : Byte) : Bool := flag .notReady code || flag .sleep code || flag .laserErr code

/-- The temperature/humidity gate (R162, R160). -/
def gateTh (code : Byte) : Bool := flag .notReady code || flag .trhErr code

/-- BUSY_CODE (R7). -/
def busyCode : Byte := 0x16

/-- The busy test, on the whole byte (R163). -/
def isBusyCode (b : Byte) : Bool := b == busyCode

/-- The code of an outcome (R203). -/
def OutcomeCode.code : OutcomeCode → BitVec 3
  | .none => 0
  | .ok => 1
  | .already => 2
  | .gated => 3
  | .chkAbort => 4
  | .busyCode => 5
  | .chkRequery => 6

/-- STATUS as the host reads it (R22): bit 15 first, the reserved bits 0. -/
def statusWord (s : State) : Half :=
  0#1 ++ s.outcome.code ++ 0#2 ++ s.modeCur.code ++ 0#1 ++ BitVec.ofBool s.overrun ++ BitVec.ofBool s.illegal
    ++ BitVec.ofBool s.reportChkInvalid ++ BitVec.ofBool s.noMeas ++ BitVec.ofBool s.chkErr ++ BitVec.ofBool s.done
    ++ BitVec.ofBool s.busy

end Sys2Proof.Machine
end

