-- ==== Sys2Proof/Machine/Ops.lean ====
section
/-! DEFINITION. The named operations the micro-steps are made of: taking the input sample, reset (R230), presenting a host
word (R140 to R142), StartExchange (R148), finish (R149), TxByte (R101), the gap (R144), the settle wait (R145), the drain
(R105 to R107), decodeState (R127) and the latches (R181 to R187). The block has no trap entry and no trap return (R201,
R209); `acceptWord` and `finish` are what stands in their place. -/

namespace Sys2Proof.Machine

/-- The answer of a meaning. -/
abbrev Answer := Host.Outcome State Fault Refusal

/-! The world: input samples (log 2, log 3). -/

/-- The sample of a micro-step that no script describes: the host silent, `dev_addr` as it was, the transport free. -/
def freeSample (s : State) : Sample :=
  { rst := false, hcmd := none, devAddr := s.devAddr, txReady := Config.freeTxReady s.draws,
    rxIn := Config.freeRx s.draws }

/-- The input sample of the coming micro-step. -/
def nextSample (s : State) : Sample :=
  match s.env with
  | p :: _ => p
  | [] => freeSample s

/-- The input ports take the levels of a sample and its bytes join the receive buffer behind those already there
(R65, R68). -/
def applySample (p : Sample) (s : State) : State :=
  { s with devAddr := p.devAddr, txReady := p.txReady, rxBuf := s.rxBuf ++ p.rxIn }

/-- The script moves on by one sample, or one free draw is used up. -/
def advanceEnv (s : State) : State :=
  match s.env with
  | _ :: rest => { s with env := rest }
  | [] => { s with draws := s.draws + 1 }

/-- The state at the head of a micro-step, the world's part done. -/
def sampled (s : State) : State := applySample (nextSample s) (advanceEnv s)

/-- Reset (R230): every piece of state of R45 takes its reset value. The transport, its receive buffer and what stands
outside the block stay (R232). -/
def resetBlock (s : State) : State :=
  { State.reset with
    rxBuf := s.rxBuf, devAddr := s.devAddr, txReady := s.txReady, env := s.env, draws := s.draws,
    txHist := s.txHist, irqCount := s.irqCount }

/-! Exchanges (R148, R149). -/

/-- The writes of StartExchange (R148), the opcode given. -/
def loadExchange (ph : Phase) (o : Byte) (s : State) : State :=
  { s with
    phase := ph, frame := buildCommand s.addrL o, txi := 0, waitSel := waitSelOf s.opL ph,
    drainEn := drainEnOf s.opL ph, fsm := .tx }

/-- `StartExchange(ph)` (R148). -/
def startExchange (ph : Phase) (s : State) : Answer :=
  match opc s.opL ph s.modeL with
  | some o => .next (loadExchange ph o s)
  | none => .fault .noSuchPhase

/-- `finish(code)` (R149). -/
def finish (code : OutcomeCode) (s : State) : State :=
  { s with outcome := code, busy := false, done := true, fsm := .idle, irqCount := s.irqCount + 1 }

/-! Host word presentations (R140 to R142). -/

/-- A word presented while BUSY = 1 is dropped (R142). -/
def raiseOverrun (s : State) : State := { s with overrun := true }

/-- An illegal word presented while BUSY = 0 (R141). -/
def raiseIllegal (s : State) : State := { s with illegal := true }

/-- The latches of an accepted word (R140). -/
def latchWord (op : HostOp) (m : Mode) (s : State) : State :=
  { s with opL := op, modeL := m, addrL := s.devAddr, busy := true, done := false }

/-- A legal host word is presented: dropped while BUSY (R142), else accepted (R140). -/
def acceptWord (op : HostOp) (m : Mode) (s : State) : Answer :=
  if s.busy then .next (raiseOverrun s) else startExchange .refA (latchWord op m s)

/-- An illegal host word is presented: an overrun while BUSY (R142, R206), else ILLEGAL (R141). -/
def illegalWord (s : State) : State := if s.busy then raiseOverrun s else raiseIllegal s

/-! The channel micro-steps (R143 to R146). -/

/-- `TxByte(b)` taken by the transport (R101), then GAP (R143). -/
def txByte (b : Byte) (s : State) : State := { s with txHist := s.txHist ++ [b], fsm := .gap }

/-- TX (R143): the byte moves if `tx_ready` = 1, else the block stays (R101). -/
def txStep (f : Frame) (s : State) : State := if s.txReady then txByte (frameByte f s.txi) s else s

/-- The FSM enters a control state and nothing else changes. -/
def enter (f : Fsm) (s : State) : State := { s with fsm := f }

/-- The next byte of the frame is to be sent (R144). -/
def nextByte (s : State) : State := { s with txi := s.txi + 1, fsm := .tx }

/-- GAP (R144). -/
def gapStep (s : State) : State := if s.txi.val < 2 then nextByte s else enter .settle s

/-- `DrainStart()` (R105, R115), then DRAIN. -/
def drainStart (s : State) : State := { s with resp := [], respLen := 0, sum := 0, fsm := .drain }

/-- SETTLE (R145). -/
def settleStep (s : State) : State := if s.drainEn then drainStart s else enter .eval s

/-- RESP_CAP (R7): how many bytes of a response are stored. -/
def respCap : BitVec 5 := 16

/-- A byte is stored and summed (R106, R116). -/
def storeByte (b : Byte) (s : State) : State :=
  { s with resp := s.resp.write s.respLen.toNat b, sum := s.sum + b, respLen := s.respLen + 1 }

/-- `RxByte()` (R100): the oldest byte is consumed, the bytes `rest` stay. -/
def popRx (rest : List Byte) (s : State) : State := { s with rxBuf := rest }

/-- `DrainStep()` (R106) on the byte `b`, the oldest of the receive buffer, the bytes `rest` staying there. Beyond the
cap the byte is consumed, not stored and not summed. -/
def drainStep (b : Byte) (rest : List Byte) (s : State) : State :=
  if s.respLen < respCap then storeByte b (popRx rest s) else popRx rest s

/-- `DrainEnd()` (R107) with `validate` (R117), then EVAL. -/
def drainEnd (s : State) : State := { s with chkErr := checksumVerdict s.sum, fsm := .eval }

/-- DRAIN (R146): one byte if one is available, else the end of the drain. -/
def drainPoll (s : State) : State :=
  match s.rxBuf with
  | b :: rest => drainStep b rest s
  | [] => drainEnd s

/-! The actions of the EVAL arms. -/

/-- `decodeState(b)` (R127). -/
def decodeState (b : Byte) (s : State) : State :=
  { s with reportChkInvalid := s.chkErr, stateCode := decodedState s.chkErr b }

/-- `decodeState(RESP[2])` (R128, R151). -/
def decodeResp (s : State) : State := decodeState (respState s) s

/-- `PmLatch(m)`: the six words (R181), MODE_CUR and NO_MEAS (R184). -/
def pmLatch (m : Mode) (s : State) : State :=
  { s with
    pm1Cnt := windowCnt s pm1Window, pm1DenRaw := windowDenRaw s pm1Window,
    pm25Cnt := windowCnt s pm25Window, pm25DenRaw := windowDenRaw s pm25Window,
    pm10Cnt := windowCnt s pm10Window, pm10DenRaw := windowDenRaw s pm10Window,
    modeCur := m, noMeas := false }

/-- `PmBusy()` (R183). -/
def pmBusy (s : State) : State := { s with noMeas := true }

/-- `ThLatch()`: the two words (R185) and NO_MEAS (R187). -/
def thLatch (s : State) : State :=
  { s with tRaw := respWord s tOffset, hRaw := respWord s hOffset, noMeas := false }

/-- `ThBusy()` (R186). -/
def thBusy (s : State) : State := { s with noMeas := true }

end Sys2Proof.Machine
end

