-- ==== Sys2Proof/Machine/HostWords.lean ====
section
/-! DEFINITION. The meanings of the eight host words: the micro-step in which the host presents the word (R140, R142). What
follows an accepted word are the micro-steps of its exchanges (Machine/WireCommands.lean) and the arms of its EVAL states
(Machine/Eval.lean). -/

namespace Sys2Proof.Machine

/-- GETSTATE, host word 0x01 (R152). -/
def execGetstate (s : State) : Answer := acceptWord .getState .off s

/-- SLEEP, host word 0x02 (R153). -/
def execSleep (s : State) : Answer := acceptWord .sleep .off s

/-- WAKE, host word 0x03 (R154). -/
def execWake (s : State) : Answer := acceptWord .wake .off s

/-- PM OFF, host word 0x04 (R156, R155). -/
def execPmOff (s : State) : Answer := acceptWord .pm .off s

/-- PM FAST, host word 0x14 (R157, R155). -/
def execPmFast (s : State) : Answer := acceptWord .pm .fast s

/-- PM MEDIUM, host word 0x24 (R158, R155). -/
def execPmMedium (s : State) : Answer := acceptWord .pm .medium s

/-- PM SLOW, host word 0x34 (R159, R155). -/
def execPmSlow (s : State) : Answer := acceptWord .pm .slow s

/-- TH, host word 0x05 (R160). -/
def execTh (s : State) : Answer := acceptWord .th .off s

end Sys2Proof.Machine
end

