-- ==== Sys2Proof/Machine/Eval.lean ====
section
/-! DEFINITION. The EVAL arms of the host operations (R151 to R160) and their dispatch on `(op_l, phase)` (R147, R150). -/

namespace Sys2Proof.Machine

/-- GETSTATE, REF_A (R152). -/
def evalGetState (s : State) : Answer := .next (finish .ok (decodeResp s))

/-- SLEEP, REF_A: R153 (a). -/
def evalSleepRefA (s : State) : Answer :=
  let t := decodeResp s
  if flag .sleep t.stateCode then .next (finish .already t) else startExchange .main t

/-- SLEEP, MAIN: R153 (b). -/
def evalSleepMain (s : State) : Answer :=
  if s.chkErr then startExchange .refB s else .next (finish .ok (decodeResp s))

/-- SLEEP, REF_B: R153 (c). -/
def evalSleepRefB (s : State) : Answer := .next (finish .chkRequery (decodeResp s))

/-- WAKE, REF_A: R154 (a). -/
def evalWakeRefA (s : State) : Answer :=
  let t := decodeResp s
  if flag .sleep t.stateCode then startExchange .main t else .next (finish .already t)

/-- WAKE, MAIN: R154 (b). -/
def evalWakeMain (s : State) : Answer := startExchange .refB s

/-- WAKE, REF_B: R154 (c). -/
def evalWakeRefB (s : State) : Answer := .next (finish .ok (decodeResp s))

/-- PM, REF_A: R155 (a) with the gate of R161. -/
def evalPmRefA (s : State) : Answer :=
  let t := decodeResp s
  if gatePm t.stateCode then .next (finish .gated t) else startExchange .main t

/-- PM, MAIN: R155 (b) with the busy test of R163. -/
def evalPmMain (s : State) : Answer :=
  if s.chkErr then .next (finish .chkAbort s)
  else if isBusyCode (respState s) then startExchange .refB (pmBusy (decodeResp s))
  else .next (finish .ok (pmLatch s.modeL (decodeResp s)))

/-- PM, REF_B: R155 (c). -/
def evalPmRefB (s : State) : Answer := .next (finish .busyCode (decodeResp s))

/-- TH, REF_A: R160 (a) with the gate of R162. -/
def evalThRefA (s : State) : Answer :=
  let t := decodeResp s
  if gateTh t.stateCode then .next (finish .gated t) else startExchange .main t

/-- TH, MAIN: R160 (b) with the busy test of R163; no re-refresh after the busy code. -/
def evalThMain (s : State) : Answer :=
  if s.chkErr then .next (finish .chkAbort s)
  else if isBusyCode (respState s) then .next (finish .busyCode (thBusy (decodeResp s)))
  else .next (finish .ok (thLatch (decodeResp s)))

/-- The dispatch table of R150; at a dash no arm exists. -/
def evalArm (s : State) : Answer :=
  match s.opL, s.phase with
  | .getState, .refA => evalGetState s
  | .getState, .main => .fault .noSuchPhase
  | .getState, .refB => .fault .noSuchPhase
  | .sleep, .refA => evalSleepRefA s
  | .sleep, .main => evalSleepMain s
  | .sleep, .refB => evalSleepRefB s
  | .wake, .refA => evalWakeRefA s
  | .wake, .main => evalWakeMain s
  | .wake, .refB => evalWakeRefB s
  | .pm, .refA => evalPmRefA s
  | .pm, .main => evalPmMain s
  | .pm, .refB => evalPmRefB s
  | .th, .refA => evalThRefA s
  | .th, .main => evalThMain s
  | .th, .refB => .fault .noSuchPhase

end Sys2Proof.Machine
end

