-- ==== Sys2Proof/Machine/WireCommands.lean ====
section
/-! DEFINITION. The meanings of the seven wire commands: the next micro-step of the exchange of the command's frame (R14,
R143 to R147). Which arm EVAL takes is decided by `(op_l, phase)` (R147), not by the opcode. -/

namespace Sys2Proof.Machine

/-- One micro-step of the exchange that sends the frame `f` (R143 to R147). In IDLE no exchange is in progress and
nothing happens (R37, R216). -/
def exchangeStep (f : Frame) (s : State) : Answer :=
  match s.fsm with
  | .idle => .next s
  | .tx => .next (txStep f s)
  | .gap => .next (gapStep s)
  | .settle => .next (settleStep s)
  | .drain => .next (drainPoll s)
  | .eval => evalArm s

/-- CMD_STATE, opcode 0x16: the state refresh (R146, R75). -/
def execCmdState (a c : Byte) (s : State) : Answer := exchangeStep ⟨a, opcState, c⟩ s

/-- CMD_TOGGLE, opcode 0x15: the toggle of SLEEP and WAKE (R153, R154, R75). -/
def execCmdToggle (a c : Byte) (s : State) : Answer := exchangeStep ⟨a, opcToggle, c⟩ s

/-- CMD_TH, opcode 0x14: the temperature/humidity query (R160, R75). -/
def execCmdTh (a c : Byte) (s : State) : Answer := exchangeStep ⟨a, opcTh, c⟩ s

/-- CMD_PM_FAST, opcode 0x11 (R157, R75). -/
def execCmdPmFast (a c : Byte) (s : State) : Answer := exchangeStep ⟨a, opcFast, c⟩ s

/-- CMD_PM_MEDIUM, opcode 0x12 (R158, R75). -/
def execCmdPmMedium (a c : Byte) (s : State) : Answer := exchangeStep ⟨a, opcMedium, c⟩ s

/-- CMD_PM_SLOW, opcode 0x13 (R159, R75). -/
def execCmdPmSlow (a c : Byte) (s : State) : Answer := exchangeStep ⟨a, opcSlow, c⟩ s

/-- CMD_PM_OFF, opcode 0x00 (R156, R75). -/
def execCmdPmOff (a c : Byte) (s : State) : Answer := exchangeStep ⟨a, opcOff, c⟩ s

end Sys2Proof.Machine
end

