-- ==== Sys2Proof/Machine/Dispatch.lean ====
section
/-! DEFINITION. The dispatch of an instruction to its meaning, one arm per constructor. -/

namespace Sys2Proof.Machine

def exec (i : Instr) (s : State) : Host.Outcome State Fault Refusal :=
  match i with
  -- host words (R72)
  | .getstate => Sys2Proof.Machine.execGetstate s
  | .sleep => Sys2Proof.Machine.execSleep s
  | .wake => Sys2Proof.Machine.execWake s
  | .pmOff => Sys2Proof.Machine.execPmOff s
  | .pmFast => Sys2Proof.Machine.execPmFast s
  | .pmMedium => Sys2Proof.Machine.execPmMedium s
  | .pmSlow => Sys2Proof.Machine.execPmSlow s
  | .th => Sys2Proof.Machine.execTh s
  -- wire commands (R75)
  | .cmdState a c => Sys2Proof.Machine.execCmdState a c s
  | .cmdToggle a c => Sys2Proof.Machine.execCmdToggle a c s
  | .cmdTh a c => Sys2Proof.Machine.execCmdTh a c s
  | .cmdPmFast a c => Sys2Proof.Machine.execCmdPmFast a c s
  | .cmdPmMedium a c => Sys2Proof.Machine.execCmdPmMedium a c s
  | .cmdPmSlow a c => Sys2Proof.Machine.execCmdPmSlow a c s
  | .cmdPmOff a c => Sys2Proof.Machine.execCmdPmOff a c s

end Sys2Proof.Machine
end

