-- ==== Sys2Proof/Machine/Fetch.lean ====
section
/-! DEFINITION. Where a step finds its instruction. The block has no stored program (R20, R66): a host word is read from
the port `hcmd` (R70), a wire command from `frame` while its exchange runs (R40). Also how an opcode-table word is put
there. -/

namespace Sys2Proof.Machine

/-- What a micro-step that is no reset executes. -/
inductive Source where
  /-- the host presents a word (R140 to R142) -/
  | port (w : Byte)
  /-- the exchange of a frame is in progress (R143 to R147) -/
  | exchange (f : Frame)
  /-- IDLE without a presentation: nothing to do (R37) -/
  | nothing
  deriving DecidableEq, Repr

/-- The source of the coming micro-step: the host's presentation first, else the FSM's exchange (R171). -/
def source (p : Sample) (s : State) : Source :=
  match p.hcmd with
  | some w => .port w
  | none => if s.fsm = .idle then .nothing else .exchange s.frame

/-- The bytes of the instruction, none where there is none. -/
def Source.bytes : Source → Option (List Byte)
  | .port w => some [w]
  | .exchange f => some f.bytes
  | .nothing => none

/-- What a micro-step does when its bytes are no instruction, or there are none: an illegal host word (R141, R142), the
micro-step of a frame whatever its opcode (R143 to R147 read none; log 9), or nothing. -/
def withoutInstr (src : Source) (s : State) : Answer :=
  match src with
  | .port _ => .next (illegalWord s)
  | .exchange f => exchangeStep f s
  | .nothing => .next s

/-- The instruction the bytes of a source decode to. -/
def Source.instr (src : Source) : Option Instr := src.bytes.bind fun l => (decode l).toOption

/-- The sample in which the host presents a word, everything else as it is. -/
def wordSample (w : Byte) (s : State) : Sample :=
  { rst := false, hcmd := some w, devAddr := s.devAddr, txReady := s.txReady, rxIn := [] }

/-- The sample in which the transport takes an offered byte, everything else as it is. -/
def readySample (s : State) : Sample :=
  { rst := false, hcmd := none, devAddr := s.devAddr, txReady := true, rxIn := [] }

/-- The operation, phase and mode whose exchange sends the opcode `o` (R75, R93): a state refresh where `o` is no MAIN
opcode. -/
def exchangeOf (o : Byte) : HostOp × Phase × Mode :=
  if o = opcToggle then (.sleep, .main, .off)
  else if o = opcTh then (.th, .main, .off)
  else if o = opcFast then (.pm, .main, .fast)
  else if o = opcMedium then (.pm, .main, .medium)
  else if o = opcSlow then (.pm, .main, .slow)
  else if o = opcOff then (.pm, .main, .off)
  else (.getState, .refA, .off)

/-- The state in which the exchange of the frame `f` is about to send its first byte (log 7). -/
def placeFrame (f : Frame) (s : State) : State :=
  { s with
    busy := true, done := false, opL := (exchangeOf f.b1).1, phase := (exchangeOf f.b1).2.1,
    modeL := (exchangeOf f.b1).2.2, addrL := f.b0, frame := f, txi := 0, waitSel := .settle, drainEn := true,
    fsm := .tx, env := readySample s :: s.env }

/-- The state in which the host presents the word `w` next (log 7). -/
def placeWord (w : Byte) (s : State) : State := { s with env := wordSample w s :: s.env }

end Sys2Proof.Machine
end

