-- ==== Sys2Proof/Machine/Step.lean ====
section
/-! DEFINITION. One step: the world's part of the micro-step, then one row of the transition table R171. -/

namespace Sys2Proof.Machine

/-- The row of R171 that is no reset: the decoded instruction, or what happens without one. -/
def runSource (src : Source) (s : State) : Host.Outcome State Fault Refusal :=
  match src.instr with
  | some i => exec i s
  | none => withoutInstr src s

/-- One step. Reset takes precedence over every other event of the same micro-step (R206, R230). -/
def step (s : State) : Host.Outcome State Fault Refusal :=
  if (nextSample s).rst then .next (resetBlock (sampled s))
  else runSource (source (nextSample s) (sampled s)) (sampled s)

/-- `s` with the instruction of an opcode-table word where `step` finds its next one: a host word on the port `hcmd`
(8 bits), a wire command in `frame` with its exchange about to start (24 bits). -/
def State.withFetchWord (s : State) (nbits w : Nat) : State :=
  if nbits = 8 then placeWord (BitVec.ofNat 8 w) s
  else if nbits = 24 then placeFrame (frameOfWord w) s
  else s

end Sys2Proof.Machine
end

