-- ==== Sys2Proof/Machine/Ports.lean ====
section
/-! DEFINITION. What the host and the transport see of a state: the read port (R21, R76), the other output ports (R73) and
the least time a micro-step takes (R104, R110). None of them changes the state (R60). -/

namespace Sys2Proof.Machine

/-- The register at a read index (R21), zero-extended to 16 bits (R58); reserved indexes read 0x0000 (R36). -/
def readRegister (s : State) : Nat → Half
  | 0x00 => statusWord s
  | 0x01 => s.stateCode.setWidth 16
  | 0x02 => s.pm1Cnt
  | 0x03 => s.pm1DenRaw
  | 0x04 => density s.pm1DenRaw
  | 0x05 => s.pm25Cnt
  | 0x06 => s.pm25DenRaw
  | 0x07 => density s.pm25DenRaw
  | 0x08 => s.pm10Cnt
  | 0x09 => s.pm10DenRaw
  | 0x0A => density s.pm10DenRaw
  | 0x0B => s.tRaw
  | 0x0C => s.hRaw
  | 0x0D => s.respLen.setWidth 16
  | n => if 0x10 ≤ n ∧ n ≤ 0x1F then (s.resp.read (n - 0x10)).setWidth 16 else 0x0000

/-- Port `rd_data` for the level `rd_idx` of the 6-bit index port (R73, R76). -/
def rdData (s : State) (rdIdx : BitVec 6) : Half := readRegister s rdIdx.toNat

/-- Port `busy` (R73). -/
def busyPort (s : State) : Bool := s.busy

/-- Port `done` (R73). -/
def donePort (s : State) : Bool := s.done

/-- Port `tx_valid` (R73, R101): a byte is offered in TX. DESIGN CHOICE (unsafe, log 22): the level is that of the state,
also in a step that a presentation or a reset takes, in which no byte moves; the spec gives no level there. -/
def txValid (s : State) : Bool := s.fsm == .tx

/-- Port `tx_data` (R73, R101): the byte offered in TX. DESIGN CHOICE (safe, log 21): while `tx_valid` = 0 the spec gives no
level, and the model gives none. -/
def txData (s : State) : Option Byte := if txValid s then some (frameByte s.frame s.txi) else none

/-- Port `rx_avail` (R73), an input: the transport's receive buffer holds a byte. -/
def rxAvail (s : State) : Bool := !s.rxBuf.isEmpty

/-- Port `rx_data` (R73), an input: the oldest received byte; without one it means nothing (R100). -/
def rxData (s : State) : Option Byte := s.rxBuf.head?

/-- Port `rx_pop` (R73, R106): DRAIN consumes a byte whenever one is available. DESIGN CHOICE (unsafe, log 22): the level is
that of the state, also in a step that a presentation or a reset takes, in which no byte is consumed; the spec gives no
level there. -/
def rxPop (s : State) : Bool := s.fsm == .drain && rxAvail s

/-- The least time, in milliseconds, the FSM's micro-step from `s` takes (R144, R145, R110). No step reads it (R17). -/
def minWaitMs (s : State) : Nat :=
  match s.fsm, s.waitSel with
  | .gap, _ => Config.tByteMs
  | .settle, .settle => Config.tSettleMs
  | .settle, .wake => Config.tWakeMs
  | _, _ => 0

/-- The least time the coming step takes: that of the FSM's micro-step, nothing for an event of the host or a reset. -/
def stepWaitMs (s : State) : Nat :=
  match (nextSample s).rst, source (nextSample s) (sampled s) with
  | false, .exchange _ => minWaitMs s
  | _, _ => 0

end Sys2Proof.Machine
end

