-- ==== Sys2Proof/Machine/HostSide.lean ====
section
/-! DEFINITION. The host's side of the spec: reports (R131 to R133), readiness and the other projections (R83, R135), the
expansion of the document's calls (R82, R83) and how a host program plays out (R82), initialisation (R234), and the
reference conversion of temperature and humidity (R188). -/

namespace Sys2Proof.Machine

/-- A line of a report (R133). -/
inductive ReportLine where
  | checksumInvalid
  | enabled (f : StateFlag)
  | disabled (f : StateFlag)
  deriving DecidableEq, Repr

/-- The line both reports begin with after a failed checksum (R133). -/
def reportHead (s : State) : List ReportLine := if s.reportChkInvalid then [.checksumInvalid] else []

/-- `all_report` (R133): the current label of every flag. -/
def allReport (s : State) : List ReportLine :=
  reportHead s ++ allFlags.map fun f => if flag f s.stateCode then .enabled f else .disabled f

/-- `active_report` (R133): the labels of the flags that are set. -/
def activeReport (s : State) : List ReportLine :=
  reportHead s ++ (allFlags.filter fun f => flag f s.stateCode).map .enabled

/-- The text of a line (R131). -/
def reportText : ReportLine → String
  | .checksumInvalid => "CHECKSUM INVALID"
  | .enabled f => Config.labelEn (flagIndex f)
  | .disabled f => Config.labelDis (flagIndex f)

/-- A report as one text (R83, D31). -/
def joinReport (l : List ReportLine) : String := Config.reportSep.intercalate (l.map reportText)

/-- `getAllStatusText()` after its `GETSTATE` (R83, R133). -/
def getAllStatusText (s : State) : String := joinReport (allReport s)

/-- `getActiveStatusText()` after its `GETSTATE` (R83, R133). -/
def getActiveStatusText (s : State) : String := joinReport (activeReport s)

/-- `isReadyToMeasure()` after its `GETSTATE` (R83, R135). -/
def isReadyToMeasure (s : State) : Bool := !flag .notReady s.stateCode

/-- `getStateCode()` after its `GETSTATE` (R83, R23). -/
def getStateCode (s : State) : Byte := s.stateCode

/-- `lastChecksumFailed()` (R83). -/
def lastChecksumFailed (s : State) : Bool := s.chkErr

/-- `lastMeasurementValid()` (R83, R27). -/
def lastMeasurementValid (s : State) : Bool := !s.noMeas

/-- A line of a host program (R82). -/
inductive HostLine where
  /-- a host operation or a raw word: the value presented on `hcmd` -/
  | present (w : Byte)
  /-- `WAITDONE` -/
  | waitDone
  /-- `READ` of the register at an index -/
  | read (idx : BitVec 6)
  deriving DecidableEq, Repr

/-- The document's public calls (R83). -/
inductive HostCall where
  | isReadyToMeasure
  | getStateCode
  | getAllStatusText
  | getActiveStatusText
  | requestSleep
  | requestWake
  | refreshParticulateData (m : Mode)
  | refreshTemperatureHumidity
  | lastChecksumFailed
  | lastMeasurementValid
  | density (channel : Fin 3)
  | count (channel : Fin 3)
  | temperatureHumidity
  deriving DecidableEq, Repr

/-- One operation line and its `WAITDONE`. -/
def operationLines (i : Instr) : List HostLine := (encode i).map .present ++ [.waitDone]

/-- The expansion of a call (R83); `STATUS` has index 0x00, `STATE_CODE` 0x01, the channels follow three apart (R21). -/
def HostCall.expand : HostCall → List HostLine
  | .isReadyToMeasure => operationLines .getstate ++ [.read 0x01]
  | .getStateCode => operationLines .getstate ++ [.read 0x01]
  | .getAllStatusText => operationLines .getstate ++ [.read 0x01, .read 0x00]
  | .getActiveStatusText => operationLines .getstate ++ [.read 0x01, .read 0x00]
  | .requestSleep => operationLines .sleep
  | .requestWake => operationLines .wake
  | .refreshParticulateData m => operationLines (.pmWord m)
  | .refreshTemperatureHumidity => operationLines .th
  | .lastChecksumFailed => [.read 0x00]
  | .lastMeasurementValid => [.read 0x00]
  | .density c => [.read (BitVec.ofNat 6 (0x04 + 3 * c.val))]
  | .count c => [.read (BitVec.ofNat 6 (0x02 + 3 * c.val))]
  | .temperatureHumidity => [.read 0x0B, .read 0x0C]

/-- The host presents `w` in the coming micro-step, the transport acting as it would have (R82, R70). -/
def presentNext (w : Byte) (s : State) : State :=
  { advanceEnv s with env := { nextSample s with hcmd := some w } :: (advanceEnv s).env }

/-- `WAITDONE` (R82): micro-steps until DONE = 1, at most `fuel` of them (log 15). -/
def waitDone : Nat → State → Answer
  | 0, s => .next s
  | fuel + 1, s =>
    if s.done then .next s
    else
      match step s with
      | .next t => waitDone fuel t
      | .fault r => .fault r
      | .refused r => .refused r

/-- One line of a host program and the values it reads (R82). A `READ` takes no step (log 19), so none passes between two of
them (log 20). -/
def runLine (fuel : Nat) : HostLine → State → Answer × List Half
  | .present w, s => (step (presentNext w s), [])
  | .waitDone, s => (waitDone fuel s, [])
  | .read idx, s => (.next s, [rdData s idx])

/-- The lines of a host program in order, and the values they read (R82). DESIGN CHOICE (unsafe, log 20): no micro-step of the
FSM passes between two lines, so two consecutive `READ` lines see the same state; R59 lets a micro-step fall between them
while BUSY = 1. -/
def runLines (fuel : Nat) : List HostLine → State → Answer × List Half
  | [], s => (.next s, [])
  | line :: rest, s =>
    match runLine fuel line s with
    | (.next t, reads) => ((runLines fuel rest t).1, reads ++ (runLines fuel rest t).2)
    | (.fault r, reads) => (.fault r, reads)
    | (.refused r, reads) => (.refused r, reads)

/-- `initialize(..) -> success` (R83, R234): the system opens the transport and resets the block; `success` is the
transport's report `opened`, which the block does not see. -/
def openAndReset (opened : Bool) (s : State) : Bool × State := (opened, resetBlock s)

/-- TH_DIV (R7). -/
def thDiv : Rat := 100

/-- The exact reference temperature `0.9754 × (T_RAW / 100) − 4.2488` (R188). -/
def correctedTemp (tRaw : Half) : Rat := (9754 / 10000) * ((tRaw.toNat : Rat) / thDiv) - 42488 / 10000

/-- The exact reference humidity `1.1768 × (H_RAW / 100) − 4.727` (R188). -/
def correctedHumidity (hRaw : Half) : Rat := (11768 / 10000) * ((hRaw.toNat : Rat) / thDiv) - 4727 / 1000

/-- What an implementation's host computes from the two words: an open parameter (R188). -/
def hostTemperatureHumidity (s : State) : Rat × Rat := Config.thConvert s.tRaw s.hRaw

end Sys2Proof.Machine
end

