-- ==== Sys2Proof/Safety.lean ====
section
/-! DEFINITION. What counts as a proper state of the block, the conditions of R200, runs under scripts of input samples,
and the progress measure of an operation. -/

namespace Sys2Proof.Safety

open Sys2Proof.Machine

/-- The pairs `(op_l, phase)` that R150 does not mark as impossible. -/
def possiblePhase (op : HostOp) (ph : Phase) : Bool :=
  match op, ph with
  | .getState, .refA => true
  | .getState, _ => false
  | .th, .refB => false
  | _, _ => true

/-- The frame in progress is the one the builder makes for the exchange (R148, R90, R93, R95). -/
def FrameBuilt (s : State) : Prop :=
  ∃ o, opc s.opL s.phase s.modeL = some o ∧ s.frame = buildCommand s.addrL o

/-- The bytes beyond RESP_LEN are 0x00 (R52). -/
def ZeroFilled (s : State) : Prop := ∀ i, s.respLen.toNat ≤ i → s.resp.read i = 0x00

/-- What holds in every state the block can be in. -/
structure Inv (s : State) : Prop where
  /-- RESP is in its canonical form. -/
  memory : s.resp.wf = true
  /-- RESP_LEN is 0 to 16 (R53). -/
  length : s.respLen.toNat ≤ Memory.size
  /-- Bytes beyond RESP_LEN read 0x00 (R52). -/
  zeroFilled : ZeroFilled s
  /-- SUM is the sum of the stored bytes (R115). -/
  accumulator : s.sum = s.resp.sumTo s.respLen.toNat
  /-- Outside a drain CHK_ERR is the verdict on the stored bytes (R118, R122). -/
  verdict : s.fsm ≠ .drain → s.chkErr = checksumVerdict s.sum
  /-- BUSY is 1 exactly outside IDLE (R33, R37). -/
  busyIff : s.busy = true ↔ s.fsm ≠ .idle
  /-- DONE is 0 while an operation is in progress (R33). -/
  doneIdle : s.busy = true → s.done = false
  /-- DONE comes with the outcome of the finished operation (R35, R203). -/
  doneOutcome : s.done = true → s.outcome ≠ .none
  /-- The phase is one the operation has (R150). -/
  possible : s.busy = true → possiblePhase s.opL s.phase = true
  /-- The frame is the exchange's (R148). -/
  built : s.busy = true → FrameBuilt s
  /-- `wait_sel` and `drain_en` are the exchange's (R148). -/
  waits : s.busy = true → s.waitSel = waitSelOf s.opL s.phase ∧ s.drainEn = drainEnOf s.opL s.phase
  /-- Only a PM word latches a mode (R70, R72). -/
  modeOff : s.opL ≠ .pm → s.modeL = .off
  /-- All three bytes have been sent when the settle wait, the drain and EVAL are reached (R144). -/
  sent : s.fsm = .settle ∨ s.fsm = .drain ∨ s.fsm = .eval → s.txi = 2
  /-- A drain belongs to an exchange that has one (R145). -/
  drains : s.fsm = .drain → s.drainEn = true
  /-- The report flag comes with the forced state (R127). -/
  forced : s.reportChkInvalid = true → s.stateCode = forcedState

/-! Host words. -/

/-- The operation and the mode of a host word (R71, R72, R140); a wire command has none. -/
def hostOperation : Instr → Option (HostOp × Mode)
  | .getstate => some (.getState, .off)
  | .sleep => some (.sleep, .off)
  | .wake => some (.wake, .off)
  | .pmOff => some (.pm, .off)
  | .pmFast => some (.pm, .fast)
  | .pmMedium => some (.pm, .medium)
  | .pmSlow => some (.pm, .slow)
  | .th => some (.th, .off)
  | .cmdState _ _ | .cmdToggle _ _ | .cmdTh _ _ | .cmdPmFast _ _ | .cmdPmMedium _ _ | .cmdPmSlow _ _
  | .cmdPmOff _ _ => none

/-- The number of an operation in field OP (R71). -/
def opNumber : HostOp → BitVec 4
  | .getState => 1
  | .sleep => 2
  | .wake => 3
  | .pm => 4
  | .th => 5

/-! The conditions of R200. -/

/-- The conditions the block detects (R200). -/
inductive Condition where
  | chksumInvalid
  | busyCode
  | gated
  | already
  | illegalWord
  | overrun
  deriving DecidableEq, Repr

/-- The code of a condition (R200). -/
def Condition.code : Condition → Nat
  | .chksumInvalid => 1
  | .busyCode => 2
  | .gated => 3
  | .already => 4
  | .illegalWord => 5
  | .overrun => 6

/-- The state the refresh whose response is in RESP decodes to (R127, R151). -/
def refreshed (s : State) : Byte := decodedState s.chkErr (respState s)

/-- Whether the micro-step of the FSM from `s` detects a condition (R200, R205). The last two are the host's. -/
def fsmDetects (s : State) : Condition → Bool
  | .chksumInvalid => s.fsm == .drain && s.rxBuf.isEmpty && s.sum != 0
  | .busyCode =>
    s.fsm == .eval && (s.opL == .pm || s.opL == .th) && s.phase == .main && !s.chkErr && isBusyCode (respState s)
  | .gated =>
    s.fsm == .eval && s.phase == .refA
      && ((s.opL == .pm && gatePm (refreshed s)) || (s.opL == .th && gateTh (refreshed s)))
  | .already =>
    s.fsm == .eval && s.phase == .refA
      && ((s.opL == .sleep && flag .sleep (refreshed s)) || (s.opL == .wake && !flag .sleep (refreshed s)))
  | .illegalWord => false
  | .overrun => false

/-! What a micro-step leaves alone. -/

/-- Every row of the reset table R45. -/
structure AtReset (s : State) : Prop where
  stateCode : s.stateCode = 0x00
  chkErr : s.chkErr = false
  noMeas : s.noMeas = true
  reportChkInvalid : s.reportChkInvalid = false
  modeCur : s.modeCur = .off
  status : s.busy = false ∧ s.done = false ∧ s.illegal = false ∧ s.overrun = false
  outcome : s.outcome = .none
  pm1 : s.pm1Cnt = 0x0000 ∧ s.pm1DenRaw = 0x0000
  pm25 : s.pm25Cnt = 0x0000 ∧ s.pm25DenRaw = 0x0000
  pm10 : s.pm10Cnt = 0x0000 ∧ s.pm10DenRaw = 0x0000
  th : s.tRaw = 0x0000 ∧ s.hRaw = 0x0000
  resp : ∀ i, s.resp.read i = 0x00
  respLen : s.respLen = 0
  fsm : s.fsm = .idle
  phase : s.phase = .refA
  latches : s.opL = .getState ∧ s.modeL = .off ∧ s.addrL = 0x00
  frame : s.frame = ⟨0x00, 0x00, 0x00⟩ ∧ s.txi = 0
  waits : s.waitSel = .settle ∧ s.drainEn = true
  sum : s.sum = 0x00

/-- The six particulate words are the same (R30). -/
structure SamePm (s t : State) : Prop where
  pm1 : t.pm1Cnt = s.pm1Cnt ∧ t.pm1DenRaw = s.pm1DenRaw
  pm25 : t.pm25Cnt = s.pm25Cnt ∧ t.pm25DenRaw = s.pm25DenRaw
  pm10 : t.pm10Cnt = s.pm10Cnt ∧ t.pm10DenRaw = s.pm10DenRaw

/-- The temperature and humidity words are the same (R31). -/
def SameTh (s t : State) : Prop := t.tRaw = s.tRaw ∧ t.hRaw = s.hRaw

/-- Every measurement register, MODE_CUR and NO_MEAS are the same (R190). -/
def SameMeasurements (s t : State) : Prop :=
  SamePm s t ∧ SameTh s t ∧ t.modeCur = s.modeCur ∧ t.noMeas = s.noMeas

/-- STATE_CODE and the report flag are the same. -/
def SameDecoded (s t : State) : Prop :=
  t.stateCode = s.stateCode ∧ t.reportChkInvalid = s.reportChkInvalid

/-- The response buffer is the same, byte for byte, and so are its length and the accumulator. -/
def SameResponse (s t : State) : Prop :=
  (∀ a, t.resp.read a = s.resp.read a) ∧ t.respLen = s.respLen ∧ t.sum = s.sum

/-- The sticky bits are the same (R34). -/
def SameSticky (s t : State) : Prop := t.illegal = s.illegal ∧ t.overrun = s.overrun

/-- What marks the progress of operations is the same (R33, R35, R207). -/
def SameCompletion (s t : State) : Prop :=
  t.busy = s.busy ∧ t.done = s.done ∧ t.outcome = s.outcome ∧ t.irqCount = s.irqCount

/-- The latches of the accepted word are the same (R39). -/
def SameLatches (s t : State) : Prop := t.opL = s.opL ∧ t.modeL = s.modeL ∧ t.addrL = s.addrL

/-- The exchange set up by StartExchange is the same (R148). -/
def SameExchange (s t : State) : Prop :=
  t.phase = s.phase ∧ t.frame = s.frame ∧ t.waitSel = s.waitSel ∧ t.drainEn = s.drainEn

/-- The channel's two histories are the same: nothing sent, nothing consumed. -/
def SameChannel (s t : State) : Prop := t.txHist = s.txHist ∧ t.rxBuf = s.rxBuf

/-- The input ports and the model's script are the same: a meaning never touches them. -/
def SameWorld (s t : State) : Prop :=
  t.devAddr = s.devAddr ∧ t.txReady = s.txReady ∧ t.env = s.env ∧ t.draws = s.draws

/-! Scripts and runs. -/

/-- A state with another script. -/
def withEnv (s : State) (l : List Sample) : State := { s with env := l }

/-- A sample in which the host is silent, the transport takes a byte if one is offered, and the bytes `rx` arrive. -/
def quiet (devAddr : Byte) (rx : List Byte) : Sample :=
  { rst := false, hcmd := none, devAddr := devAddr, txReady := true, rxIn := rx }

/-- A sample in which the host presents the word `w`. -/
def presents (devAddr : Byte) (w : Byte) : Sample :=
  { rst := false, hcmd := some w, devAddr := devAddr, txReady := true, rxIn := [] }

/-- The script of one drained exchange and its EVAL: three bytes with their gaps, the settle wait in which the response
`rx` arrives, one poll per byte, the poll that finds none, EVAL. -/
def drainedScript (devAddr : Byte) (rx : List Byte) : List Sample :=
  List.replicate 6 (quiet devAddr []) ++ quiet devAddr rx :: List.replicate (rx.length + 2) (quiet devAddr [])

/-- The script of the wake toggle exchange and its EVAL, the bytes `rx` arriving in its wait. -/
def toggleScript (devAddr : Byte) (rx : List Byte) : List Sample :=
  List.replicate 6 (quiet devAddr []) ++ [quiet devAddr rx, quiet devAddr []]

/-- One step for each sample of the script of `s`. -/
def runScript (s : State) : Host.Outcome State Fault Refusal := Sys2Proof.core.run s.env.length s

/-- The least time of the next `k` steps, in milliseconds (R243). -/
def runWaitMs : Nat → State → Nat
  | 0, _ => 0
  | k + 1, s =>
    stepWaitMs s +
      match step s with
      | .next t => runWaitMs k t
      | _ => 0

/-! The progress of an operation (R165). -/

/-- How many exchanges may follow the one of a phase. -/
def phaseRank : Phase → Nat
  | .refA => 2
  | .main => 1
  | .refB => 0

/-- The steps the exchange in progress still takes up to its EVAL, that one included, while nothing more arrives and every
offered byte is taken. -/
def exchangeBound (s : State) : Nat :=
  match s.fsm with
  | .idle => 0
  | .tx => 2 * (3 - s.txi.val) + s.rxBuf.length + 3
  | .gap => 2 * (2 - s.txi.val) + 1 + s.rxBuf.length + 3
  | .settle => s.rxBuf.length + 3
  | .drain => s.rxBuf.length + 2
  | .eval => 1

/-- A bound on the steps of the operation in progress, while nothing more arrives and every offered byte is taken. -/
def operationBound (s : State) : Nat := exchangeBound s + phaseRank s.phase * (9 + s.rxBuf.length)

/-! What an operation gives for the responses it drains (R164). -/

/-- The sum of the bytes of a list mod 256 (R118). -/
def byteSum (l : List Byte) : Byte := l.foldr (· + ·) 0

/-- The stored part of what a drain finds: at most 16 bytes (R53, R106). -/
def stored (l : List Byte) : List Byte := l.take 16

/-- Whether the response a drain stores is valid (R77, R118). -/
def validResponse (l : List Byte) : Bool := byteSum (stored l) == 0

/-- Byte `i` of a drained response, 0x00 beyond its end (R52). -/
def responseByte (l : List Byte) (i : Nat) : Byte := (stored l).getD i 0x00

/-- The big-endian word at offset `k` of a drained response (R55). -/
def responseWord (l : List Byte) (k : Nat) : Half := be16 (responseByte l k) (responseByte l (k + 1))

/-- The state a refresh decodes from a drained response (R127, R151). -/
def refreshCode (l : List Byte) : Byte := if validResponse l then responseByte l 2 else 0xFF

/-- The command frames with the opcodes `os` for the address `a`, as bytes in the order they are sent (R74). -/
def framesOf (a : Byte) (os : List Byte) : List Byte := os.flatMap fun o => [a, o, chk a o]

/-- `t` is the end of an operation accepted in `s`, with the outcome `c` and the frames `os` sent (R149, R164). -/
structure Finished (s t : State) (a : Byte) (c : OutcomeCode) (os : List Byte) : Prop where
  idle : t.fsm = .idle
  busy : t.busy = false
  done : t.done = true
  outcome : t.outcome = c
  irq : t.irqCount = s.irqCount + 1
  sent : t.txHist = s.txHist ++ framesOf a os
  sticky : SameSticky s t

/-- The registers of `t` after a last drain that found `l` and a decodeState of it (R122, R127). -/
structure Decoded (t : State) (l : List Byte) (code : Byte) : Prop where
  code : t.stateCode = code
  chkErr : t.chkErr = !validResponse l
  report : t.reportChkInvalid = !validResponse l
  resp : ∀ i, i < 16 → t.resp.read i = responseByte l i
  respLen : t.respLen.toNat = (stored l).length

end Sys2Proof.Safety
end

