-- ==== Sys2Proof/WellFormed.lean ====
section
/-! DEFINITION. When an instruction is well formed: a host word always (its row fixes every bit, R72), a wire command
when the three bytes of its frame sum to 0 mod 256, `(A + o + C) mod 256 = 0` (R74). -/

namespace Sys2Proof

/-- The constraint on a command frame (R74, R92), in 8-bit arithmetic. -/
def Frame.sumsToZero (f : Frame) : Bool := f.b0 + f.b1 + f.b2 == 0

/-- The check on an instruction: its frame, if it has one, meets the constraint of R74. -/
def Instr.wellFormed (i : Instr) : Bool :=
  match i.wireFrame with
  | some f => f.sumsToZero
  | none => true

end Sys2Proof
end

