-- ==== Sys2Proof/Certificates/Slice0/Obligations.lean ====
section
/-! DEFINITION. The statements for the provers, in the order of OBLIGATIONS.json. -/

namespace Sys2Proof

open Sys2Proof.Machine

/-! What several statements name. -/

/-- The state byte the EVAL arm of a refresh decodes (R127, R151). -/
def refreshByte (s : State) : Byte := if s.chkErr then 0xFF else s.resp.read 2

/-- `s` after decodeState of its refresh (R127). -/
def afterRefresh (s : State) : State := { s with reportChkInvalid := s.chkErr, stateCode := refreshByte s }

/-- `s` after `finish(c)` (R149). -/
def afterFinish (c : OutcomeCode) (s : State) : State :=
  { s with outcome := c, busy := false, done := true, fsm := .idle, irqCount := s.irqCount + 1 }

/-- `s` after StartExchange of the phase `ph` with the opcode `o`, of an exchange that drains (R148). -/
def afterStart (ph : Phase) (o : Byte) (s : State) : State :=
  { s with
    phase := ph, frame := ⟨s.addrL, o, chk s.addrL o⟩, txi := 0, waitSel := .settle, drainEn := true, fsm := .tx }

/-- The four particulate commands. -/
def isPmCommand (i : Instr) : Prop :=
  ∃ a c, i = .cmdPmOff a c ∨ i = .cmdPmFast a c ∨ i = .cmdPmMedium a c ∨ i = .cmdPmSlow a c

end Sys2Proof

open Sys2Proof Sys2Proof.Machine Sys2Proof.Safety

/-! Encodings (30_encoding.md, 40_command_builder.md). -/

/-- Every well-formed instruction decodes from its encoding, and whatever decodes is encoded by the same bytes
(R72, R74, R87). -/
def Obligations.DecodeEncodeAgree : Prop :=
  (∀ i : Instr, i.wellFormed = true → decode (encode i) = .ok i) ∧
    ∀ (l : List Byte) (i : Instr), decode l = .ok i → encode i = l

/-- The legal host words are the eight of R72, each decoding to its own row; every other byte is refused. -/
def Obligations.LegalHostWordsAreTheEight : Prop :=
  (decode [0x01] = .ok .getstate ∧ decode [0x02] = .ok .sleep ∧ decode [0x03] = .ok .wake ∧
    decode [0x04] = .ok .pmOff ∧ decode [0x14] = .ok .pmFast ∧ decode [0x24] = .ok .pmMedium ∧
    decode [0x34] = .ok .pmSlow ∧ decode [0x05] = .ok .th) ∧
  (∀ w : Byte, (∃ i, decode [w] = .ok i) →
    w = 0x01 ∨ w = 0x02 ∨ w = 0x03 ∨ w = 0x04 ∨ w = 0x14 ∨ w = 0x24 ∨ w = 0x34 ∨ w = 0x05) ∧
  ∀ w : Byte, w.extractLsb' 6 2 ≠ 0 ∨ (w.extractLsb' 4 2 ≠ 0 ∧ w.extractLsb' 0 4 ≠ 4) ∨
    w.extractLsb' 0 4 = 0 ∨ 5 < (w.extractLsb' 0 4).toNat → ∀ i, decode [w] ≠ .ok i

/-- A three-byte frame decodes by its middle byte alone, to one of the seven rows (R75, R87). -/
def Obligations.FrameDecodesByItsOpcode : Prop :=
  ∀ a o c : Byte,
    decode [a, o, c] =
      if o = 0x16 then .ok (.cmdState a c) else if o = 0x15 then .ok (.cmdToggle a c)
      else if o = 0x14 then .ok (.cmdTh a c) else if o = 0x11 then .ok (.cmdPmFast a c)
      else if o = 0x12 then .ok (.cmdPmMedium a c) else if o = 0x13 then .ok (.cmdPmSlow a c)
      else if o = 0x00 then .ok (.cmdPmOff a c) else .error (.unassignedOpcode o)

/-- Words written out bit by bit from R70 and R74, with the frames of R96 for A = 0x81. -/
def Obligations.SpelledWordsDecode : Prop :=
  decode [0b00000011#8] = .ok .wake ∧ decode [0b00110100#8] = .ok .pmSlow ∧
    decode [0x81, 0x16, 0x69] = .ok (.cmdState 0x81 0x69) ∧ decode [0x81, 0x15, 0x6A] = .ok (.cmdToggle 0x81 0x6A) ∧
    decode [0x81, 0x00, 0x7F] = .ok (.cmdPmOff 0x81 0x7F)

/-- The checksum byte is `(0x100 − opcode − address) mod 0x100`, with the two other spellings and the corner cases that
R91 gives; so the bytes of every built frame sum to 0 mod 256, and the frame read back as a response is valid (R92). -/
def Obligations.ChecksumMakesFramesSumToZero : Prop :=
  (∀ a o : Byte,
    ((chk a o).toNat : Int) = (0x100 - (o.toNat : Int) - (a.toNat : Int)) % 0x100 ∧
      (chk a o).toNat = (256 - (a.toNat + o.toNat) % 256) % 256 ∧
      chk a o = ~~~(a + o) + 1 ∧
      (chk a o = 0x00 ↔ (a.toNat + o.toNat) % 256 = 0) ∧
      buildCommand a o = ⟨a, o, chk a o⟩ ∧
      (a.toNat + o.toNat + (chk a o).toNat) % 256 = 0 ∧ validResponse (buildCommand a o).bytes = true) ∧
  chk 0x00 0x00 = 0x00 ∧ chk 0xFF 0xFF = 0x02

/-! Reset (10_state.md R45, 70_reset_and_hazards.md R230). -/

/-- The state after reset holds every value of R45. -/
def Obligations.ResetHoldsEveryTableValue : Prop := AtReset State.reset ∧ rdData State.reset 0x00 = 0x0008

/-- With `rst` = 1 a step gives every piece of state of R45 its reset value whatever else is presented or in progress, and
sends nothing, emits no `irq_done` and leaves the receive buffer; after it every host word is accepted (R206, R230,
R232). -/
def Obligations.ResetBeatsEverything : Prop :=
  ∀ s : State, (nextSample s).rst = true →
    ∃ t, step s = .next t ∧ AtReset t ∧ t.txHist = s.txHist ∧ t.irqCount = s.irqCount ∧
      t.rxBuf = s.rxBuf ++ (nextSample s).rxIn ∧
      ∀ (i : Instr) (op : HostOp) (m : Mode), hostOperation i = some (op, m) →
        ∃ u, exec i t = .next u ∧ u.busy = true ∧ u.opL = op ∧ u.modeL = m ∧ u.fsm = .tx

/-! A step (44_query_fsm.md R140 to R142, R171). -/

/-- When the host presents a byte, or an exchange is in progress, and the bytes there decode to an instruction, the step is
that instruction's meaning on the state at the head of the micro-step; in IDLE without a presentation that state is all.
At the head the input ports take the sample's levels, the received bytes join the receive buffer at its end, the script moves
on, and every other piece of state is as it was. The script and the free samples after its end are the model's own
(log 2, 3). -/
def Obligations.StepRunsTheDecodedInstruction : Prop :=
  ∀ (s : State) (i : Instr), (nextSample s).rst = false →
    (∀ w, (nextSample s).hcmd = some w → decode [w] = .ok i → step s = exec i (sampled s)) ∧
    ((nextSample s).hcmd = none → s.fsm ≠ .idle → decode s.frame.bytes = .ok i → step s = exec i (sampled s)) ∧
    ((nextSample s).hcmd = none → s.fsm = .idle → step s = .next (sampled s)) ∧
    sampled s =
      { s with
        devAddr := (nextSample s).devAddr, txReady := (nextSample s).txReady,
        rxBuf := s.rxBuf ++ (nextSample s).rxIn, env := s.env.tail,
        draws := if s.env.isEmpty then s.draws + 1 else s.draws }

/-- A legal word presented while BUSY = 0 is accepted: operation, mode and address latched, BUSY set, DONE cleared and the
opening state refresh set up (R140, R148). R140 says `fsm` = IDLE; that BUSY = 0 alone decides is the model's reading
(DEDUCED, log 11). -/
def Obligations.LegalWordIsAccepted : Prop :=
  ∀ (s : State) (w : Byte) (i : Instr), (nextSample s).rst = false → (nextSample s).hcmd = some w →
    s.busy = false → decode [w] = .ok i →
    ∃ op m, hostOperation i = some (op, m) ∧ opNumber op = w.extractLsb' 0 4 ∧ m.code = w.extractLsb' 4 2 ∧
      step s =
        .next
          { sampled s with
            opL := op, modeL := m, addrL := (nextSample s).devAddr, busy := true, done := false, phase := .refA,
            frame := ⟨(nextSample s).devAddr, 0x16, chk (nextSample s).devAddr 0x16⟩, txi := 0, waitSel := .settle,
            drainEn := true, fsm := .tx }

/-- Each of the eight host words: on every state with BUSY = 0 it completes by starting its operation and changes nothing
else (R140); on every state with BUSY = 1 it is dropped and only OVERRUN is set (R142). R140 says `fsm` = IDLE; that BUSY = 0
alone decides acceptance, also outside IDLE, is the model's reading (DEDUCED, log 11). -/
def Obligations.HostWordStartsItsOperation : Prop :=
  ∀ (i : Instr) (op : HostOp) (m : Mode) (s : State), hostOperation i = some (op, m) →
    (s.busy = false →
      exec i s =
        .next
          { s with
            opL := op, modeL := m, addrL := s.devAddr, busy := true, done := false, phase := .refA,
            frame := ⟨s.devAddr, 0x16, chk s.devAddr 0x16⟩, txi := 0, waitSel := .settle, drainEn := true,
            fsm := .tx }) ∧
    (s.busy = true → exec i s = .next { s with overrun := true })

/-- A word presented while BUSY = 1, legal or not, sets OVERRUN and nothing else (R142). -/
def Obligations.AnyWordWhileBusyOnlySetsOverrun : Prop :=
  ∀ (s : State) (w : Byte), (nextSample s).rst = false → (nextSample s).hcmd = some w → s.busy = true →
    step s = .next { sampled s with overrun := true }

/-- An illegal word presented while BUSY = 0 sets ILLEGAL and nothing else (R141). R141 says `fsm` = IDLE; that BUSY = 0 alone
decides is the model's reading (DEDUCED, log 11). -/
def Obligations.IllegalWordOnlySetsIllegal : Prop :=
  ∀ (s : State) (w : Byte), (nextSample s).rst = false → (nextSample s).hcmd = some w → s.busy = false →
    (∀ i, decode [w] ≠ .ok i) → step s = .next { sampled s with illegal := true }

/-! The micro-steps of an exchange, for every wire command (R143 to R146). -/

/-- TX: a byte that the transport takes enters the transmit history and the FSM goes to GAP (R143, R101); while the
transport is not ready nothing happens. -/
def Obligations.WireCommandSendsItsNextByte : Prop :=
  ∀ (i : Instr) (f : Frame) (s : State), i.wireFrame = some f → s.fsm = .tx →
    exec i s =
      if s.txReady then
        .next
          { s with
            txHist := s.txHist ++ [if s.txi = 0 then f.b0 else if s.txi = 1 then f.b1 else f.b2], fsm := .gap }
      else .next s

/-- GAP: after at least 1 ms the next byte is to be sent, or after the third the settle wait begins (R144). -/
def Obligations.GapLeadsToTheNextByte : Prop :=
  ∀ (i : Instr) (f : Frame) (s : State), i.wireFrame = some f → s.fsm = .gap →
    minWaitMs s = 1 ∧
      exec i s =
        if s.txi.val < 2 then .next { s with txi := s.txi + 1, fsm := .tx } else .next { s with fsm := .settle }

/-- SETTLE: after at least T_WAKE or T_SETTLE a drain starts with every byte of RESP 0x00, RESP_LEN 0 and SUM 0, or EVAL
follows at once (R145, R105). -/
def Obligations.SettleStartsTheDrain : Prop :=
  ∀ (i : Instr) (f : Frame) (s : State), i.wireFrame = some f → s.fsm = .settle →
    minWaitMs s = (if s.waitSel = .wake then 1000 else 350) ∧
    (s.drainEn = false → exec i s = .next { s with fsm := .eval }) ∧
    (s.drainEn = true →
      ∃ t, exec i s = .next t ∧ (∀ a, t.resp.read a = 0x00) ∧
        t = { s with resp := t.resp, respLen := 0, sum := 0x00, fsm := .drain })

/-- DRAIN with a byte available: one byte is consumed; below the cap it is stored at RESP_LEN, summed and counted, every
other byte of RESP unchanged; beyond the cap it is lost (R106, R116). -/
def Obligations.DrainConsumesOneByte : Prop :=
  ∀ (i : Instr) (f : Frame) (s : State) (b : Byte) (rest : List Byte), i.wireFrame = some f → s.fsm = .drain →
    s.resp.wf = true → s.rxBuf = b :: rest →
    (s.respLen.toNat < 16 →
      ∃ t, exec i s = .next t ∧ t.resp.read s.respLen.toNat = b ∧
        (∀ a, a ≠ s.respLen.toNat → t.resp.read a = s.resp.read a) ∧
        t.sum.toNat = (s.sum.toNat + b.toNat) % 256 ∧ t.respLen.toNat = s.respLen.toNat + 1 ∧
        t = { s with resp := t.resp, respLen := t.respLen, sum := t.sum, rxBuf := rest }) ∧
    (16 ≤ s.respLen.toNat → exec i s = .next { s with rxBuf := rest })

/-- DRAIN with nothing available: CHK_ERR becomes 1 exactly when SUM is not 0x00, and EVAL follows (R107, R117). -/
def Obligations.DrainEndValidates : Prop :=
  ∀ (i : Instr) (f : Frame) (s : State), i.wireFrame = some f → s.fsm = .drain → s.rxBuf = [] →
    exec i s = .next { s with chkErr := if s.sum ≠ 0x00 then true else false, fsm := .eval }

/-! The EVAL arms (R151 to R163). -/

/-- CMD_STATE in the EVAL arm of GETSTATE: the state is decoded and the operation ends with OK (R152). -/
def Obligations.GetstateArmDecodesAndEnds : Prop :=
  ∀ (a c : Byte) (s : State), s.fsm = .eval → s.opL = .getState → s.phase = .refA →
    exec (.cmdState a c) s =
      .next
        { s with
          reportChkInvalid := s.chkErr, stateCode := if s.chkErr then 0xFF else s.resp.read 2, outcome := .ok,
          busy := false, done := true, fsm := .idle, irqCount := s.irqCount + 1 }

/-- The arms of SLEEP (R153). (a) CMD_STATE: with F_SLEEP set nothing is toggled (ALREADY), else the toggle follows.
(b) CMD_TOGGLE: after a failed checksum a re-query, else the toggle response is decoded and the operation ends with OK.
(c) CMD_STATE: the closing refresh ends with CHK_REQUERY. -/
def Obligations.SleepArms : Prop :=
  ∀ (a c : Byte) (s : State), s.fsm = .eval → s.opL = .sleep →
    (s.phase = .refA → (refreshByte s).getLsbD 0 = true →
      exec (.cmdState a c) s = .next (afterFinish .already (afterRefresh s))) ∧
    (s.phase = .refA → (refreshByte s).getLsbD 0 = false →
      exec (.cmdState a c) s = .next (afterStart .main 0x15 (afterRefresh s))) ∧
    (s.phase = .main → s.chkErr = true → exec (.cmdToggle a c) s = .next (afterStart .refB 0x16 s)) ∧
    (s.phase = .main → s.chkErr = false →
      exec (.cmdToggle a c) s =
        .next (afterFinish .ok { s with reportChkInvalid := false, stateCode := s.resp.read 2 })) ∧
    (s.phase = .refB → exec (.cmdState a c) s = .next (afterFinish .chkRequery (afterRefresh s)))

/-- The arms of WAKE (R154). (a) CMD_STATE: with F_SLEEP clear nothing is toggled (ALREADY), else the toggle exchange
follows, with the long wait and without a drain. (b) CMD_TOGGLE: always a re-query. (c) CMD_STATE: the closing refresh ends
with OK. -/
def Obligations.WakeArms : Prop :=
  ∀ (a c : Byte) (s : State), s.fsm = .eval → s.opL = .wake →
    (s.phase = .refA → (refreshByte s).getLsbD 0 = false →
      exec (.cmdState a c) s = .next (afterFinish .already (afterRefresh s))) ∧
    (s.phase = .refA → (refreshByte s).getLsbD 0 = true →
      exec (.cmdState a c) s =
        .next { afterStart .main 0x15 (afterRefresh s) with waitSel := .wake, drainEn := false }) ∧
    (s.phase = .main → exec (.cmdToggle a c) s = .next (afterStart .refB 0x16 s)) ∧
    (s.phase = .refB → exec (.cmdState a c) s = .next (afterFinish .ok (afterRefresh s)))

/-- CMD_STATE in the EVAL arms of PM: the particulate gate `STATE_CODE & 0x85` on the refreshed state ends with GATED, else
the mode's opcode follows; the closing refresh ends with BUSY_CODE (R155 (a), (c), R161, R94). -/
def Obligations.PmRefreshArms : Prop :=
  ∀ (a c : Byte) (s : State), s.fsm = .eval → s.opL = .pm →
    (s.phase = .refA → refreshByte s &&& 0x85 ≠ 0 →
      exec (.cmdState a c) s = .next (afterFinish .gated (afterRefresh s))) ∧
    (s.phase = .refA → refreshByte s &&& 0x85 = 0 →
      exec (.cmdState a c) s =
        .next
          (afterStart .main
            (match s.modeL with
              | .off => 0x00
              | .fast => 0x11
              | .medium => 0x12
              | .slow => 0x13)
            (afterRefresh s))) ∧
    (s.phase = .refB → exec (.cmdState a c) s = .next (afterFinish .busyCode (afterRefresh s)))

/-- A particulate command in the MAIN arm of PM, checksum valid and not the busy code: the six words are latched from the
windows at 3, 7 and 11, MODE_CUR is the operation's mode, NO_MEAS is cleared, outcome OK (R155 (b), R181, R184). -/
def Obligations.PmMainLatchesTheWindows : Prop :=
  ∀ (i : Instr) (s : State), isPmCommand i → s.fsm = .eval → s.opL = .pm → s.phase = .main → s.chkErr = false →
    s.resp.read 2 ≠ 0x16 →
    exec i s =
      .next
        (afterFinish .ok
          { s with
            reportChkInvalid := false, stateCode := s.resp.read 2,
            pm1Cnt := be16 (s.resp.read 3) (s.resp.read 4), pm1DenRaw := be16 (s.resp.read 5) (s.resp.read 6),
            pm25Cnt := be16 (s.resp.read 7) (s.resp.read 8), pm25DenRaw := be16 (s.resp.read 9) (s.resp.read 10),
            pm10Cnt := be16 (s.resp.read 11) (s.resp.read 12), pm10DenRaw := be16 (s.resp.read 13) (s.resp.read 14),
            modeCur := s.modeL, noMeas := false })

/-- A particulate command in the MAIN arm of PM otherwise: a failed checksum aborts with nothing written but the end of the
operation; the busy code sets NO_MEAS, writes no particulate register and not MODE_CUR, and re-refreshes the state
(R155 (b), R163, R183, R205). -/
def Obligations.PmMainAbortsOrReportsBusy : Prop :=
  ∀ (i : Instr) (s : State), isPmCommand i → s.fsm = .eval → s.opL = .pm → s.phase = .main →
    (s.chkErr = true → exec i s = .next (afterFinish .chkAbort s)) ∧
    (s.chkErr = false → s.resp.read 2 = 0x16 →
      exec i s =
        .next (afterStart .refB 0x16 { s with reportChkInvalid := false, stateCode := 0x16, noMeas := true }))

/-- The arms of TH (R160). (a) CMD_STATE: the gate `STATE_CODE & 0x14` on the refreshed state ends with GATED, else CMD_TH
follows. (b) CMD_TH: abort after a failed checksum; the busy code sets NO_MEAS and ends with BUSY_CODE without a
re-refresh; else T_RAW and H_RAW are latched, NO_MEAS cleared, outcome OK (R185 to R187). -/
def Obligations.ThArms : Prop :=
  ∀ (a c : Byte) (s : State), s.fsm = .eval → s.opL = .th →
    (s.phase = .refA → refreshByte s &&& 0x14 ≠ 0 →
      exec (.cmdState a c) s = .next (afterFinish .gated (afterRefresh s))) ∧
    (s.phase = .refA → refreshByte s &&& 0x14 = 0 →
      exec (.cmdState a c) s = .next (afterStart .main 0x14 (afterRefresh s))) ∧
    (s.phase = .main → s.chkErr = true → exec (.cmdTh a c) s = .next (afterFinish .chkAbort s)) ∧
    (s.phase = .main → s.chkErr = false → s.resp.read 2 = 0x16 →
      exec (.cmdTh a c) s =
        .next (afterFinish .busyCode { s with reportChkInvalid := false, stateCode := 0x16, noMeas := true })) ∧
    (s.phase = .main → s.chkErr = false → s.resp.read 2 ≠ 0x16 →
      exec (.cmdTh a c) s =
        .next
          (afterFinish .ok
            { s with
              reportChkInvalid := false, stateCode := s.resp.read 2,
              tRaw := be16 (s.resp.read 3) (s.resp.read 4), hRaw := be16 (s.resp.read 5) (s.resp.read 6),
              noMeas := false }))

/-! The flags, the read port, the reports (R24, R126, R22, R76, R182, R133). -/

/-- Flag `i` is bit `i` of the state value, in the order of R24 (R126). -/
def Obligations.FlagIsItsBit : Prop :=
  ∀ (code : Byte) (f : StateFlag),
    flag f code = decide ((1 <<< (flagIndex f).val) &&& code ≠ 0) ∧ flag f code = code.getLsbD (flagIndex f).val ∧
      allFlags[(flagIndex f).val]? = some f

/-- STATUS packs its fields at the bits of R22, and its reserved bits read 0. -/
def Obligations.StatusWordLayout : Prop :=
  ∀ s : State,
    (rdData s 0x00).getLsbD 0 = s.busy ∧ (rdData s 0x00).getLsbD 1 = s.done ∧
    (rdData s 0x00).getLsbD 2 = s.chkErr ∧ (rdData s 0x00).getLsbD 3 = s.noMeas ∧
    (rdData s 0x00).getLsbD 4 = s.reportChkInvalid ∧ (rdData s 0x00).getLsbD 5 = s.illegal ∧
    (rdData s 0x00).getLsbD 6 = s.overrun ∧ (rdData s 0x00).getLsbD 7 = false ∧
    (rdData s 0x00).extractLsb' 8 2 = s.modeCur.code ∧ (rdData s 0x00).extractLsb' 10 2 = 0 ∧
    (rdData s 0x00).extractLsb' 12 3 = s.outcome.code ∧ (rdData s 0x00).getLsbD 15 = false

/-- Every index of the read port: STATUS, the registers of R21 zero-extended, the density views, RESP at 0x10..0x1F, reserved
indexes 0x0000 (R36, R76). -/
def Obligations.ReadPortMap : Prop :=
  ∀ s : State,
    (rdData s 0x00 = statusWord s ∧ rdData s 0x01 = s.stateCode.setWidth 16 ∧ rdData s 0x02 = s.pm1Cnt ∧
      rdData s 0x03 = s.pm1DenRaw ∧ rdData s 0x04 = s.pm1DenRaw / 10 ∧ rdData s 0x05 = s.pm25Cnt ∧
      rdData s 0x06 = s.pm25DenRaw ∧ rdData s 0x07 = s.pm25DenRaw / 10 ∧ rdData s 0x08 = s.pm10Cnt ∧
      rdData s 0x09 = s.pm10DenRaw ∧ rdData s 0x0A = s.pm10DenRaw / 10 ∧ rdData s 0x0B = s.tRaw ∧
      rdData s 0x0C = s.hRaw ∧ rdData s 0x0D = s.respLen.setWidth 16) ∧
    (∀ k : BitVec 6, 0x10 ≤ k.toNat → k.toNat ≤ 0x1F → rdData s k = (s.resp.read (k.toNat - 0x10)).setWidth 16) ∧
    ∀ k : BitVec 6, k = 0x0E ∨ k = 0x0F ∨ 0x20 ≤ k.toNat → rdData s k = 0x0000

/-- The density registers read the raw word divided by 10, truncating, and so never exceed 6553 (R182). -/
def Obligations.DensityTruncates : Prop :=
  ∀ s : State,
    (rdData s 0x04).toNat = s.pm1DenRaw.toNat / 10 ∧ (rdData s 0x07).toNat = s.pm25DenRaw.toNat / 10 ∧
    (rdData s 0x0A).toNat = s.pm10DenRaw.toNat / 10 ∧ (rdData s 0x04).toNat ≤ 6553 ∧
    (rdData s 0x07).toNat ≤ 6553 ∧ (rdData s 0x0A).toNat ≤ 6553

/-- The two reports of a state (R133): the line CHECKSUM INVALID first where REPORT_CHK_INVALID is 1, then one line per flag
in order, and the lines of the set flags alone; `all_report` has 8 or 9 lines, `active_report` at most 9. -/
def Obligations.ReportsListTheFlags : Prop :=
  ∀ s : State,
    let head : List ReportLine := if s.reportChkInvalid then [.checksumInvalid] else []
    allReport s =
        head ++ allFlags.map (fun f => if s.stateCode.getLsbD (flagIndex f).val then .enabled f else .disabled f) ∧
      activeReport s =
        head ++ (allFlags.filter fun f => s.stateCode.getLsbD (flagIndex f).val).map .enabled ∧
      (allReport s).length = (if s.reportChkInvalid then 9 else 8) ∧ (activeReport s).length ≤ 9

/-! Frames: what a meaning leaves unchanged. -/

/-- A host word, accepted or dropped, changes no measurement, flag, report bit, outcome, completion count, ILLEGAL bit, no
byte of RESP, nothing of the channel and of the ports; dropped, it also leaves BUSY, DONE, the latches and the exchange. -/
def Obligations.HostWordFrame : Prop :=
  ∀ (i : Instr) (op : HostOp) (m : Mode) (s t : State), hostOperation i = some (op, m) → exec i s = .next t →
    SameMeasurements s t ∧ SameDecoded s t ∧ SameResponse s t ∧ SameChannel s t ∧ SameWorld s t ∧
    t.chkErr = s.chkErr ∧ t.illegal = s.illegal ∧ t.outcome = s.outcome ∧ t.irqCount = s.irqCount ∧
    (s.busy = false → t.overrun = s.overrun) ∧
    (s.busy = true → SameLatches s t ∧ SameExchange s t ∧ t.busy = true ∧ t.done = s.done ∧ t.fsm = s.fsm ∧
      t.txi = s.txi)

/-- A wire command outside EVAL changes no measurement, flag, report bit, completion mark, sticky bit, latch and nothing
of the exchange and of the ports; CHK_ERR changes only in DRAIN; RESP, RESP_LEN and SUM only in SETTLE (cleared) and in
DRAIN, there at most the byte at address RESP_LEN; the transmit history only in TX, the receive buffer only in DRAIN. -/
def Obligations.ChannelMicroStepFrame : Prop :=
  ∀ (i : Instr) (f : Frame) (s t : State), i.wireFrame = some f → s.fsm ≠ .eval → exec i s = .next t →
    SameMeasurements s t ∧ SameDecoded s t ∧ SameCompletion s t ∧ SameSticky s t ∧ SameLatches s t ∧
    SameExchange s t ∧ SameWorld s t ∧
    (s.fsm ≠ .drain → t.chkErr = s.chkErr ∧ t.rxBuf = s.rxBuf) ∧
    (s.fsm ≠ .tx → t.txHist = s.txHist) ∧
    (s.fsm ≠ .gap → t.txi = s.txi) ∧
    (s.fsm ≠ .drain → s.fsm ≠ .settle → SameResponse s t) ∧
    (s.fsm = .drain → ∀ a, a ≠ s.respLen.toNat → t.resp.read a = s.resp.read a)

/-- A wire command in EVAL stores to no byte of RESP and leaves RESP_LEN, SUM, CHK_ERR, the channel, the sticky bits, the
latches and the ports; the particulate words and MODE_CUR change only in the MAIN arm of PM, the temperature and humidity
words only in that of TH, NO_MEAS only in those two. -/
def Obligations.EvalFrame : Prop :=
  ∀ (i : Instr) (f : Frame) (s t : State), i.wireFrame = some f → s.fsm = .eval → exec i s = .next t →
    SameResponse s t ∧ t.chkErr = s.chkErr ∧ SameChannel s t ∧ SameSticky s t ∧ SameLatches s t ∧ SameWorld s t ∧
    ((s.opL ≠ .pm ∨ s.phase ≠ .main) → SamePm s t ∧ t.modeCur = s.modeCur) ∧
    ((s.opL ≠ .th ∨ s.phase ≠ .main) → SameTh s t) ∧
    ((s.opL ≠ .pm ∧ s.opL ≠ .th) ∨ s.phase ≠ .main → t.noMeas = s.noMeas)

/-! Invariants of every step. -/

/-- The state after reset is proper. The reset values are those of R45. -/
def Obligations.ResetIsProper : Prop := Inv State.reset

/-- Every step keeps the state proper: RESP canonical and zero-filled beyond RESP_LEN ≤ 16, SUM the sum of the stored bytes,
CHK_ERR its verdict, BUSY exactly outside IDLE, the phase possible, the frame the built one (R52, R53, R115, R118, R33,
R150, R148). -/
def Obligations.StepKeepsTheStateProper : Prop := ∀ s t : State, Inv s → step s = .next t → Inv t

/-- From a proper state the machine never stops: no fault, no refusal (R201). -/
def Obligations.ProperStateNeverStops : Prop := ∀ s : State, Inv s → ∃ t, step s = .next t

/-- No step is ever refused. A wire command in EVAL stops, by name, exactly at the pairs that R150 marks as impossible, and
that is the only stop of a step. -/
def Obligations.OnlyImpossiblePairsStop : Prop :=
  (∀ (i : Instr) (f : Frame) (s : State), i.wireFrame = some f → s.fsm = .eval →
    (exec i s = .fault .noSuchPhase ↔
      (s.opL = .getState ∧ s.phase ≠ .refA) ∨ (s.opL = .th ∧ s.phase = .refB))) ∧
  ∀ s : State,
    (∀ r, step s ≠ .refused r) ∧
    ∀ r, step s = .fault r →
      r = .noSuchPhase ∧ s.fsm = .eval ∧
        ((s.opL = .getState ∧ s.phase ≠ .refA) ∨ (s.opL = .th ∧ s.phase = .refB))

/-! Who writes what (10_state.md R47). -/

/-- ILLEGAL and OVERRUN, once 1, stay 1 until reset (R34). -/
def Obligations.StickyBitsStay : Prop :=
  ∀ s t : State, step s = .next t → (nextSample s).rst = false →
    (s.illegal = true → t.illegal = true) ∧ (s.overrun = true → t.overrun = true)

/-- CHK_ERR after every step: 0 at reset, the verdict on SUM at the end of a drain, as before in every other micro-step
(R26). -/
def Obligations.ChkErrIsWrittenAtDrainEndOnly : Prop :=
  ∀ s t : State, step s = .next t →
    t.chkErr =
      if (nextSample s).rst then false
      else if (nextSample s).hcmd = none ∧ s.fsm = .drain ∧ s.rxBuf ++ (nextSample s).rxIn = [] then s.sum != 0x00
      else s.chkErr

/-- STATE_CODE and REPORT_CHK_INVALID change only at reset and in EVAL, and there STATE_CODE becomes 0xFF if CHK_ERR = 1 and
RESP[2] if not, and the report bit CHK_ERR (R23, R47, R127). -/
def Obligations.StateCodeIsWrittenByDecodeOnly : Prop :=
  ∀ s t : State, step s = .next t → ¬ SameDecoded s t →
    (nextSample s).rst = true ∨
    (s.fsm = .eval ∧ t.stateCode = (if s.chkErr then 0xFF else s.resp.read 2) ∧ t.reportChkInvalid = s.chkErr)

/-- The particulate words and MODE_CUR change only at reset and where PM's MAIN response is valid and not the busy code;
T_RAW and H_RAW only at reset and where TH's is; both together with the end of the operation and the clearing of NO_MEAS
(R29, R30, R31, R190). -/
def Obligations.MeasurementsAreWrittenByLatchOnly : Prop :=
  ∀ s t : State, step s = .next t →
    (¬ (SamePm s t ∧ t.modeCur = s.modeCur) →
      (nextSample s).rst = true ∨
      (s.fsm = .eval ∧ s.opL = .pm ∧ s.phase = .main ∧ s.chkErr = false ∧ s.resp.read 2 ≠ 0x16 ∧
        t.modeCur = s.modeL ∧ t.noMeas = false ∧ t.outcome = .ok ∧ t.done = true)) ∧
    (¬ SameTh s t →
      (nextSample s).rst = true ∨
      (s.fsm = .eval ∧ s.opL = .th ∧ s.phase = .main ∧ s.chkErr = false ∧ s.resp.read 2 ≠ 0x16 ∧
        t.noMeas = false ∧ t.outcome = .ok ∧ t.done = true))

/-- NO_MEAS after every step: 1 at reset; in the MAIN arm of PM or TH after a valid checksum 1 for the busy code and 0 for
a latched payload; as before in every other micro-step (R27). -/
def Obligations.NoMeasFollowsTheBusyTest : Prop :=
  ∀ s t : State, step s = .next t →
    t.noMeas =
      if (nextSample s).rst then true
      else if (nextSample s).hcmd = none ∧ s.fsm = .eval ∧ (s.opL = .pm ∨ s.opL = .th) ∧ s.phase = .main ∧
          s.chkErr = false then decide (s.resp.read 2 = 0x16)
      else s.noMeas

/-- The latches hold from one accepted word to the next: they change only at reset and where a word is accepted (R39). -/
def Obligations.LatchesHoldDuringAnOperation : Prop :=
  ∀ s t : State, step s = .next t → ¬ SameLatches s t →
    (nextSample s).rst = true ∨ ((nextSample s).hcmd.isSome = true ∧ s.busy = false ∧ t.busy = true)

/-- RESP and RESP_LEN change only at reset, where a drain starts (DrainStart), and where a drain finds a byte (DrainStep);
in a step that a presentation takes they do not change (R112). -/
def Obligations.RespChangesOnlyInDrains : Prop :=
  ∀ s t : State, step s = .next t → ¬ ((∀ a, t.resp.read a = s.resp.read a) ∧ t.respLen = s.respLen) →
    (nextSample s).rst = true ∨
    ((nextSample s).hcmd = none ∧
      ((s.fsm = .settle ∧ s.drainEn = true) ∨ (s.fsm = .drain ∧ s.rxBuf ++ (nextSample s).rxIn ≠ [])))

/-- The block never flushes the receive buffer: a step appends what has arrived and removes at most the oldest byte, and
that only in DRAIN (R109, R65). -/
def Obligations.ReceivedBytesAreOnlyDrained : Prop :=
  ∀ s t : State, step s = .next t →
    t.rxBuf = s.rxBuf ++ (nextSample s).rxIn ∨
    (s.fsm = .drain ∧ ∃ b, b :: t.rxBuf = s.rxBuf ++ (nextSample s).rxIn)

/-- A step sends nothing, or, in TX with the transport ready, exactly the byte of the frame that `txi` names (R65, R143). -/
def Obligations.OnlyFrameBytesAreSent : Prop :=
  ∀ s t : State, step s = .next t →
    t.txHist = s.txHist ∨
    (s.fsm = .tx ∧ (nextSample s).txReady = true ∧
      t.txHist = s.txHist ++ [if s.txi = 0 then s.frame.b0 else if s.txi = 1 then s.frame.b1 else s.frame.b2])

/-- `irq_done` is emitted exactly in the micro-step that ends an operation, with DONE set and an outcome recorded; an
illegal or dropped word, an accept and a reset emit none (R149, R207). -/
def Obligations.CompletionEventMarksTheEnd : Prop :=
  ∀ s t : State, step s = .next t →
    (t.irqCount = s.irqCount ∨
      (t.irqCount = s.irqCount + 1 ∧ s.fsm = .eval ∧ t.fsm = .idle ∧ t.busy = false ∧ t.done = true ∧
        t.outcome ≠ .none)) ∧
    (s.busy = true → t.busy = false → (nextSample s).rst = false → t.irqCount = s.irqCount + 1)

/-- While an operation is in progress the level of `dev_addr` does not matter: two steps that differ only in it give states
that differ only in it (R39, R241). -/
def Obligations.AddressChangeIsInvisibleWhileBusy : Prop :=
  ∀ (s t : State) (p : Sample) (rest : List Sample) (d : Byte), s.busy = true →
    step (withEnv s (p :: rest)) = .next t → p.rst = false →
    step (withEnv s ({ p with devAddr := d } :: rest)) = .next { t with devAddr := d }

/-- Each condition of R200 that the FSM detects is recorded as its row says. -/
def Obligations.DetectedConditionsAreRecorded : Prop :=
  ∀ (i : Instr) (f : Frame) (s t : State), i.wireFrame = some f → exec i s = .next t →
    (fsmDetects s .chksumInvalid = true → t.chkErr = true) ∧
    (fsmDetects s .busyCode = true → t.noMeas = true ∧ (s.opL = .th → t.outcome = .busyCode)) ∧
    (fsmDetects s .gated = true → t.outcome = .gated ∧ t.busy = false) ∧
    (fsmDetects s .already = true → t.outcome = .already ∧ t.busy = false) ∧
    (s.fsm = .eval → s.phase ≠ .main → s.chkErr = true → t.stateCode = 0xFF ∧ t.reportChkInvalid = true)

/-! Progress (R165, R243). -/

/-- EVAL either ends the operation or starts an exchange of a later phase, so an operation has at most three exchanges; no
other micro-step of the FSM changes the phase (R165, R168). -/
def Obligations.PhasesOnlyAdvance : Prop :=
  ∀ s t : State, step s = .next t → (nextSample s).rst = false → (nextSample s).hcmd = none →
    (s.fsm = .eval → t.fsm = .idle ∨ (t.fsm = .tx ∧ phaseRank t.phase < phaseRank s.phase)) ∧
    (s.fsm ≠ .eval → t.phase = s.phase)

/-- Under a script that leaves the block alone, takes every byte and delivers none, an operation in progress ends within its
bound, with DONE and an outcome (R165; the bound is the model's, derived from R164). -/
def Obligations.OperationsComplete : Prop :=
  ∀ (s : State) (d : Byte), Inv s → s.busy = true →
    ∃ k t, k ≤ operationBound s ∧
      Sys2Proof.core.run k (withEnv s (List.replicate (operationBound s) (quiet d []))) = .next t ∧
      t.busy = false ∧ t.done = true ∧ t.outcome ≠ .none ∧ t.irqCount = s.irqCount + 1

/-- A drained exchange takes at least 353 ms, the wake toggle at least 1003 ms, as the sum of the waits of their micro-steps
(R110, R243). -/
def Obligations.ExchangeWaits : Prop :=
  ∀ (s : State) (d : Byte) (l : List Byte), s.fsm = .tx → s.txi = 0 → s.rxBuf = [] →
    (s.waitSel = .settle → s.drainEn = true →
      runWaitMs (8 + l.length) (withEnv s (drainedScript d l)) = 353) ∧
    (s.waitSel = .wake → s.drainEn = false → runWaitMs 7 (withEnv s (toggleScript d l)) = 1003)

/-! Whole exchanges and whole operations (R114, R164). -/

/-- A drain that finds the bytes `l` and during which nothing arrives takes one micro-step per byte and one more; it stores
the first 16, zero-fills the rest, consumes all, and CHK_ERR is 1 exactly when the stored bytes do not sum to 0 mod 256
(R106, R107, R114, R118). -/
def Obligations.DrainStoresTheResponse : Prop :=
  ∀ (s : State) (d : Byte) (l : List Byte), s.fsm = .drain → s.resp = [] → s.respLen = 0 → s.sum = 0x00 →
    s.rxBuf = l →
    ∃ t, runScript (withEnv s (List.replicate (l.length + 1) (quiet d []))) = .next t ∧ t.fsm = .eval ∧
      (∀ i, i < 16 → t.resp.read i = responseByte l i) ∧ t.respLen.toNat = min 16 l.length ∧
      t.sum = byteSum (stored l) ∧ t.chkErr = !validResponse l ∧ t.rxBuf = [] ∧ t.env = [] ∧
      SameMeasurements s t ∧ SameDecoded s t ∧ SameCompletion s t ∧ SameSticky s t ∧ SameLatches s t ∧
      SameExchange s t ∧ t.txHist = s.txHist ∧ t.txi = s.txi

/-- GETSTATE, the whole operation from any state with BUSY = 0 and an empty receive buffer: one CMD_STATE frame, outcome OK,
STATE_CODE the response's state byte or 0xFF after a failed checksum (R152, R164). -/
def Obligations.GetstateOperation : Prop :=
  ∀ (s : State) (a : Byte) (l : List Byte), s.busy = false → s.rxBuf = [] →
    ∃ t, runScript (withEnv s (presents a 0x01 :: drainedScript a l)) = .next t ∧
      Finished s t a .ok [0x16] ∧ Decoded t l (refreshCode l) ∧ SameMeasurements s t

/-- SLEEP, every path of R164 (R153): ALREADY without a toggle; OK on a valid toggle response; CHK_REQUERY after an invalid
one. -/
def Obligations.SleepOperation : Prop :=
  ∀ (s : State) (a : Byte) (l l' l'' : List Byte), s.busy = false → s.rxBuf = [] →
    ((refreshCode l).getLsbD 0 = true →
      ∃ t, runScript (withEnv s (presents a 0x02 :: drainedScript a l)) = .next t ∧
        Finished s t a .already [0x16] ∧ Decoded t l (refreshCode l) ∧ SameMeasurements s t) ∧
    ((refreshCode l).getLsbD 0 = false → validResponse l' = true →
      ∃ t, runScript (withEnv s (presents a 0x02 :: drainedScript a l ++ drainedScript a l')) = .next t ∧
        Finished s t a .ok [0x16, 0x15] ∧ Decoded t l' (responseByte l' 2) ∧ SameMeasurements s t) ∧
    ((refreshCode l).getLsbD 0 = false → validResponse l' = false →
      ∃ t, runScript (withEnv s (presents a 0x02 :: drainedScript a l ++ drainedScript a l' ++ drainedScript a l'')) =
          .next t ∧
        Finished s t a .chkRequery [0x16, 0x15, 0x16] ∧ Decoded t l'' (refreshCode l'') ∧ SameMeasurements s t)

/-- WAKE, every path of R164 (R154): ALREADY without a toggle; else the toggle and a closing refresh whose drain also
collects the bytes of the toggle response (R111). -/
def Obligations.WakeOperation : Prop :=
  ∀ (s : State) (a : Byte) (l l' l'' : List Byte), s.busy = false → s.rxBuf = [] →
    ((refreshCode l).getLsbD 0 = false →
      ∃ t, runScript (withEnv s (presents a 0x03 :: drainedScript a l)) = .next t ∧
        Finished s t a .already [0x16] ∧ Decoded t l (refreshCode l) ∧ SameMeasurements s t) ∧
    ((refreshCode l).getLsbD 0 = true →
      ∃ t, runScript (withEnv s (presents a 0x03 :: drainedScript a l ++ toggleScript a l' ++
            drainedScript a l'' ++ List.replicate l'.length (quiet a []))) = .next t ∧
        Finished s t a .ok [0x16, 0x15, 0x16] ∧ Decoded t (l' ++ l'') (refreshCode (l' ++ l'')) ∧
        SameMeasurements s t)

/-- PM in any mode, every path of R164 (R155 to R159): GATED; CHK_ABORT with nothing written; BUSY_CODE with NO_MEAS set and a
second refresh; OK with the six words, MODE_CUR and NO_MEAS written. -/
def Obligations.PmOperation : Prop :=
  ∀ (s : State) (a : Byte) (m : Mode) (l l' l'' : List Byte), s.busy = false → s.rxBuf = [] →
    let w : Byte := hostWord 4 m.code
    let o : Byte := if m = .off then 0x00 else 0x10 ||| m.code.setWidth 8
    (refreshCode l &&& 0x85 ≠ 0 →
      ∃ t, runScript (withEnv s (presents a w :: drainedScript a l)) = .next t ∧
        Finished s t a .gated [0x16] ∧ Decoded t l (refreshCode l) ∧ SameMeasurements s t) ∧
    (refreshCode l &&& 0x85 = 0 → validResponse l' = false →
      ∃ t, runScript (withEnv s (presents a w :: drainedScript a l ++ drainedScript a l')) = .next t ∧
        Finished s t a .chkAbort [0x16, o] ∧ t.stateCode = refreshCode l ∧ t.chkErr = true ∧
        t.reportChkInvalid = false ∧ SameMeasurements s t) ∧
    (refreshCode l &&& 0x85 = 0 → validResponse l' = true → responseByte l' 2 = 0x16 →
      ∃ t, runScript (withEnv s (presents a w :: drainedScript a l ++ drainedScript a l' ++ drainedScript a l'')) =
          .next t ∧
        Finished s t a .busyCode [0x16, o, 0x16] ∧ Decoded t l'' (refreshCode l'') ∧ t.noMeas = true ∧
        SamePm s t ∧ SameTh s t ∧ t.modeCur = s.modeCur) ∧
    (refreshCode l &&& 0x85 = 0 → validResponse l' = true → responseByte l' 2 ≠ 0x16 →
      ∃ t, runScript (withEnv s (presents a w :: drainedScript a l ++ drainedScript a l')) = .next t ∧
        Finished s t a .ok [0x16, o] ∧ Decoded t l' (responseByte l' 2) ∧ t.noMeas = false ∧ t.modeCur = m ∧
        t.pm1Cnt = responseWord l' 3 ∧ t.pm1DenRaw = responseWord l' 5 ∧ t.pm25Cnt = responseWord l' 7 ∧
        t.pm25DenRaw = responseWord l' 9 ∧ t.pm10Cnt = responseWord l' 11 ∧ t.pm10DenRaw = responseWord l' 13 ∧
        SameTh s t)

/-- TH, every path of R164 (R160): GATED; CHK_ABORT; BUSY_CODE without a second refresh; OK with T_RAW and H_RAW written. -/
def Obligations.ThOperation : Prop :=
  ∀ (s : State) (a : Byte) (l l' : List Byte), s.busy = false → s.rxBuf = [] →
    (refreshCode l &&& 0x14 ≠ 0 →
      ∃ t, runScript (withEnv s (presents a 0x05 :: drainedScript a l)) = .next t ∧
        Finished s t a .gated [0x16] ∧ Decoded t l (refreshCode l) ∧ SameMeasurements s t) ∧
    (refreshCode l &&& 0x14 = 0 → validResponse l' = false →
      ∃ t, runScript (withEnv s (presents a 0x05 :: drainedScript a l ++ drainedScript a l')) = .next t ∧
        Finished s t a .chkAbort [0x16, 0x14] ∧ t.stateCode = refreshCode l ∧ t.chkErr = true ∧
        t.reportChkInvalid = false ∧ SameMeasurements s t) ∧
    (refreshCode l &&& 0x14 = 0 → validResponse l' = true → responseByte l' 2 = 0x16 →
      ∃ t, runScript (withEnv s (presents a 0x05 :: drainedScript a l ++ drainedScript a l')) = .next t ∧
        Finished s t a .busyCode [0x16, 0x14] ∧ Decoded t l' 0x16 ∧ t.noMeas = true ∧ SamePm s t ∧ SameTh s t ∧
        t.modeCur = s.modeCur) ∧
    (refreshCode l &&& 0x14 = 0 → validResponse l' = true → responseByte l' 2 ≠ 0x16 →
      ∃ t, runScript (withEnv s (presents a 0x05 :: drainedScript a l ++ drainedScript a l')) = .next t ∧
        Finished s t a .ok [0x16, 0x14] ∧ Decoded t l' (responseByte l' 2) ∧ t.noMeas = false ∧
        t.tRaw = responseWord l' 3 ∧ t.hRaw = responseWord l' 5 ∧ SamePm s t ∧ t.modeCur = s.modeCur)
end

