-- ==== Sys2Proof/Laws/Decode.lean ====
section
/-! SUPPORT. What the decoders give, said once: a decoded frame is the frame of its instruction, a decoded host word has no
frame. -/

namespace Sys2Proof.Laws

/-- A decoded frame is the frame of the instruction it decodes to. -/
theorem wireFrame_of_decodeWire {f : Frame} {i : Instr} (h : decodeWire f = .ok i) : i.wireFrame = some f := by
  obtain ⟨a, o, c⟩ := f
  unfold decodeWire at h
  simp only at h
  repeat' split at h
  all_goals first
    | (cases h; simp_all [Instr.wireFrame])
    | cases h

/-- The frame of an instruction decodes to it. -/
theorem decodeWire_wireFrame {f : Frame} {i : Instr} (h : i.wireFrame = some f) : decodeWire f = .ok i := by
  cases i <;> simp only [Instr.wireFrame, Option.some.injEq, reduceCtorEq] at h <;> subst h <;> rfl

/-- The bytes of a frame decode as the frame. -/
@[simp] theorem decode_bytes (f : Frame) : decode f.bytes = decodeWire f := rfl

/-- One byte decodes as a host word. -/
@[simp] theorem decode_single (w : Byte) : decode [w] = decodeHost w := rfl

/-- A wire command encodes as its frame. -/
theorem encode_of_wireFrame {f : Frame} {i : Instr} (h : i.wireFrame = some f) : encode i = f.bytes := by
  cases i <;> simp only [Instr.wireFrame, Option.some.injEq, reduceCtorEq] at h <;> subst h <;> rfl

/-- Both directions of a mode's code. -/
@[simp] theorem ofCode_code (m : Mode) : Mode.ofCode m.code = m := by cases m <;> rfl

theorem code_ofCode (m : BitVec 2) : (Mode.ofCode m).code = m := by revert m; decide

end Sys2Proof.Laws
end

