-- ==== Sys2Proof/Laws/Memory.lean ====
section
/-! SUPPORT. The laws of the response buffer: a read after a write, a write leaves every other byte alone, every
operation keeps the canonical form. -/

namespace Sys2Proof.Laws

open Sys2Proof.Machine

@[simp] theorem read_nil (i : Nat) : Memory.read [] i = 0 := rfl

@[simp] theorem wf_nil : Memory.wf [] = true := rfl

theorem read_below {m : Memory} {lo i : Nat} (h : Memory.wfFrom lo m = true) (hi : i < lo) : m.read i = 0 := by
  induction m generalizing lo with
  | nil => rfl
  | cons c m ih =>
    obtain ⟨a, v⟩ := c
    simp only [Memory.wfFrom, Bool.and_eq_true, decide_eq_true_eq] at h
    have : a ≠ i := by omega
    simp only [Memory.read, this, if_false]
    exact ih h.2 (by omega)

theorem wfFrom_mono {m : Memory} {lo lo' : Nat} (h : Memory.wfFrom lo m = true) (hle : lo' ≤ lo) :
    Memory.wfFrom lo' m = true := by
  cases m with
  | nil => rfl
  | cons c m =>
    obtain ⟨a, v⟩ := c
    simp only [Memory.wfFrom, Bool.and_eq_true, decide_eq_true_eq] at h ⊢
    exact ⟨⟨⟨by omega, h.1.1.2⟩, h.1.2⟩, h.2⟩

theorem wfFrom_consCell {m : Memory} {lo i : Nat} {v : Byte} (h : Memory.wfFrom (i + 1) m = true) (hlo : lo ≤ i)
    (hi : i < Memory.size) : Memory.wfFrom lo (Memory.consCell i v m) = true := by
  unfold Memory.consCell
  split
  · exact wfFrom_mono h (by omega)
  · simp_all [Memory.wfFrom]

theorem wfFrom_write {m : Memory} {lo i : Nat} (v : Byte) (h : Memory.wfFrom lo m = true) (hlo : lo ≤ i)
    (hi : i < Memory.size) : Memory.wfFrom lo (m.write i v) = true := by
  induction m generalizing lo with
  | nil => exact wfFrom_consCell rfl hlo hi
  | cons c m ih =>
    obtain ⟨a, w⟩ := c
    have h0 := h
    simp only [Memory.wfFrom, Bool.and_eq_true, decide_eq_true_eq] at h
    simp only [Memory.write]
    split
    · simp only [Memory.wfFrom, Bool.and_eq_true, decide_eq_true_eq]
      exact ⟨h.1, ih h.2 (by omega)⟩
    split
    · exact wfFrom_consCell (wfFrom_mono h.2 (by omega)) hlo hi
    · refine wfFrom_consCell ?_ hlo hi
      simp only [Memory.wfFrom, Bool.and_eq_true, decide_eq_true_eq]
      exact ⟨⟨⟨by omega, h.1.1.2⟩, h.1.2⟩, h.2⟩

/-- A write into the buffer keeps its canonical form. -/
theorem wf_write {m : Memory} {i : Nat} (v : Byte) (h : m.wf = true) (hi : i < Memory.size) :
    (m.write i v).wf = true := wfFrom_write v h (Nat.zero_le i) hi

theorem read_consCell_same {m : Memory} {i : Nat} {v : Byte} (h : m.read i = 0) :
    (Memory.consCell i v m).read i = v := by
  unfold Memory.consCell
  split
  · simp_all [Memory.unlisted]
  · simp [Memory.read]

theorem read_consCell_other {m : Memory} {i j : Nat} {v : Byte} (hij : j ≠ i) :
    (Memory.consCell i v m).read j = m.read j := by
  unfold Memory.consCell
  split
  · rfl
  · simp [Memory.read, hij.symm]

/-- A read after a write to the same byte gives the byte written. -/
theorem read_write_same {m : Memory} {lo i : Nat} (v : Byte) (h : Memory.wfFrom lo m = true) :
    (m.write i v).read i = v := by
  induction m generalizing lo with
  | nil => exact read_consCell_same rfl
  | cons c m ih =>
    obtain ⟨a, w⟩ := c
    simp only [Memory.wfFrom, Bool.and_eq_true, decide_eq_true_eq] at h
    simp only [Memory.write]
    split
    · have : a ≠ i := by omega
      simp only [Memory.read, this, if_false]
      exact ih h.2
    split
    · exact read_consCell_same (read_below h.2 (by omega))
    · refine read_consCell_same ?_
      have : a ≠ i := by omega
      simp only [Memory.read, this, if_false]
      exact read_below h.2 (by omega)

/-- A write leaves every other byte alone. -/
theorem read_write_other {m : Memory} {i j : Nat} (v : Byte) (hij : j ≠ i) : (m.write i v).read j = m.read j := by
  induction m with
  | nil => exact read_consCell_other hij
  | cons c m ih =>
    obtain ⟨a, w⟩ := c
    simp only [Memory.write]
    split
    · simp only [Memory.read, ih]
    split
    · rw [read_consCell_other hij]
      have : a ≠ j := by omega
      simp [Memory.read, this]
    · exact read_consCell_other hij

/-- The sum of the first bytes does not see a write behind them. -/
theorem sumTo_write {m : Memory} {n i : Nat} (v : Byte) (h : n ≤ i) : (m.write i v).sumTo n = m.sumTo n := by
  induction n with
  | zero => rfl
  | succ n ih =>
    simp only [Memory.sumTo]
    rw [ih (by omega), read_write_other v (by omega)]

end Sys2Proof.Laws
end

