-- ==== Sys2Proof/Laws/State.lean ====
section
/-! SUPPORT. One lemma per field per update of the state, so that no proof unfolds a record update. -/

namespace Sys2Proof.Laws

open Sys2Proof.Machine

variable (s : State)

@[simp] theorem applySample_busy (p : Sample) : (applySample p s).busy = s.busy := rfl
@[simp] theorem applySample_done (p : Sample) : (applySample p s).done = s.done := rfl
@[simp] theorem applySample_chkErr (p : Sample) : (applySample p s).chkErr = s.chkErr := rfl
@[simp] theorem applySample_noMeas (p : Sample) : (applySample p s).noMeas = s.noMeas := rfl
@[simp] theorem applySample_reportChkInvalid (p : Sample) : (applySample p s).reportChkInvalid = s.reportChkInvalid := rfl
@[simp] theorem applySample_illegal (p : Sample) : (applySample p s).illegal = s.illegal := rfl
@[simp] theorem applySample_overrun (p : Sample) : (applySample p s).overrun = s.overrun := rfl
@[simp] theorem applySample_modeCur (p : Sample) : (applySample p s).modeCur = s.modeCur := rfl
@[simp] theorem applySample_outcome (p : Sample) : (applySample p s).outcome = s.outcome := rfl
@[simp] theorem applySample_stateCode (p : Sample) : (applySample p s).stateCode = s.stateCode := rfl
@[simp] theorem applySample_pm1Cnt (p : Sample) : (applySample p s).pm1Cnt = s.pm1Cnt := rfl
@[simp] theorem applySample_pm1DenRaw (p : Sample) : (applySample p s).pm1DenRaw = s.pm1DenRaw := rfl
@[simp] theorem applySample_pm25Cnt (p : Sample) : (applySample p s).pm25Cnt = s.pm25Cnt := rfl
@[simp] theorem applySample_pm25DenRaw (p : Sample) : (applySample p s).pm25DenRaw = s.pm25DenRaw := rfl
@[simp] theorem applySample_pm10Cnt (p : Sample) : (applySample p s).pm10Cnt = s.pm10Cnt := rfl
@[simp] theorem applySample_pm10DenRaw (p : Sample) : (applySample p s).pm10DenRaw = s.pm10DenRaw := rfl
@[simp] theorem applySample_tRaw (p : Sample) : (applySample p s).tRaw = s.tRaw := rfl
@[simp] theorem applySample_hRaw (p : Sample) : (applySample p s).hRaw = s.hRaw := rfl
@[simp] theorem applySample_resp (p : Sample) : (applySample p s).resp = s.resp := rfl
@[simp] theorem applySample_respLen (p : Sample) : (applySample p s).respLen = s.respLen := rfl
@[simp] theorem applySample_fsm (p : Sample) : (applySample p s).fsm = s.fsm := rfl
@[simp] theorem applySample_phase (p : Sample) : (applySample p s).phase = s.phase := rfl
@[simp] theorem applySample_opL (p : Sample) : (applySample p s).opL = s.opL := rfl
@[simp] theorem applySample_modeL (p : Sample) : (applySample p s).modeL = s.modeL := rfl
@[simp] theorem applySample_addrL (p : Sample) : (applySample p s).addrL = s.addrL := rfl
@[simp] theorem applySample_frame (p : Sample) : (applySample p s).frame = s.frame := rfl
@[simp] theorem applySample_txi (p : Sample) : (applySample p s).txi = s.txi := rfl
@[simp] theorem applySample_waitSel (p : Sample) : (applySample p s).waitSel = s.waitSel := rfl
@[simp] theorem applySample_drainEn (p : Sample) : (applySample p s).drainEn = s.drainEn := rfl
@[simp] theorem applySample_sum (p : Sample) : (applySample p s).sum = s.sum := rfl
@[simp] theorem applySample_rxBuf (p : Sample) : (applySample p s).rxBuf = s.rxBuf ++ p.rxIn := rfl
@[simp] theorem applySample_devAddr (p : Sample) : (applySample p s).devAddr = p.devAddr := rfl
@[simp] theorem applySample_txReady (p : Sample) : (applySample p s).txReady = p.txReady := rfl
@[simp] theorem applySample_env (p : Sample) : (applySample p s).env = s.env := rfl
@[simp] theorem applySample_draws (p : Sample) : (applySample p s).draws = s.draws := rfl
@[simp] theorem applySample_txHist (p : Sample) : (applySample p s).txHist = s.txHist := rfl
@[simp] theorem applySample_irqCount (p : Sample) : (applySample p s).irqCount = s.irqCount := rfl

@[simp] theorem resetBlock_busy : (resetBlock s).busy = State.reset.busy := rfl
@[simp] theorem resetBlock_done : (resetBlock s).done = State.reset.done := rfl
@[simp] theorem resetBlock_chkErr : (resetBlock s).chkErr = State.reset.chkErr := rfl
@[simp] theorem resetBlock_noMeas : (resetBlock s).noMeas = State.reset.noMeas := rfl
@[simp] theorem resetBlock_reportChkInvalid : (resetBlock s).reportChkInvalid = State.reset.reportChkInvalid := rfl
@[simp] theorem resetBlock_illegal : (resetBlock s).illegal = State.reset.illegal := rfl
@[simp] theorem resetBlock_overrun : (resetBlock s).overrun = State.reset.overrun := rfl
@[simp] theorem resetBlock_modeCur : (resetBlock s).modeCur = State.reset.modeCur := rfl
@[simp] theorem resetBlock_outcome : (resetBlock s).outcome = State.reset.outcome := rfl
@[simp] theorem resetBlock_stateCode : (resetBlock s).stateCode = State.reset.stateCode := rfl
@[simp] theorem resetBlock_pm1Cnt : (resetBlock s).pm1Cnt = State.reset.pm1Cnt := rfl
@[simp] theorem resetBlock_pm1DenRaw : (resetBlock s).pm1DenRaw = State.reset.pm1DenRaw := rfl
@[simp] theorem resetBlock_pm25Cnt : (resetBlock s).pm25Cnt = State.reset.pm25Cnt := rfl
@[simp] theorem resetBlock_pm25DenRaw : (resetBlock s).pm25DenRaw = State.reset.pm25DenRaw := rfl
@[simp] theorem resetBlock_pm10Cnt : (resetBlock s).pm10Cnt = State.reset.pm10Cnt := rfl
@[simp] theorem resetBlock_pm10DenRaw : (resetBlock s).pm10DenRaw = State.reset.pm10DenRaw := rfl
@[simp] theorem resetBlock_tRaw : (resetBlock s).tRaw = State.reset.tRaw := rfl
@[simp] theorem resetBlock_hRaw : (resetBlock s).hRaw = State.reset.hRaw := rfl
@[simp] theorem resetBlock_resp : (resetBlock s).resp = State.reset.resp := rfl
@[simp] theorem resetBlock_respLen : (resetBlock s).respLen = State.reset.respLen := rfl
@[simp] theorem resetBlock_fsm : (resetBlock s).fsm = State.reset.fsm := rfl
@[simp] theorem resetBlock_phase : (resetBlock s).phase = State.reset.phase := rfl
@[simp] theorem resetBlock_opL : (resetBlock s).opL = State.reset.opL := rfl
@[simp] theorem resetBlock_modeL : (resetBlock s).modeL = State.reset.modeL := rfl
@[simp] theorem resetBlock_addrL : (resetBlock s).addrL = State.reset.addrL := rfl
@[simp] theorem resetBlock_frame : (resetBlock s).frame = State.reset.frame := rfl
@[simp] theorem resetBlock_txi : (resetBlock s).txi = State.reset.txi := rfl
@[simp] theorem resetBlock_waitSel : (resetBlock s).waitSel = State.reset.waitSel := rfl
@[simp] theorem resetBlock_drainEn : (resetBlock s).drainEn = State.reset.drainEn := rfl
@[simp] theorem resetBlock_sum : (resetBlock s).sum = State.reset.sum := rfl
@[simp] theorem resetBlock_rxBuf : (resetBlock s).rxBuf = s.rxBuf := rfl
@[simp] theorem resetBlock_devAddr : (resetBlock s).devAddr = s.devAddr := rfl
@[simp] theorem resetBlock_txReady : (resetBlock s).txReady = s.txReady := rfl
@[simp] theorem resetBlock_env : (resetBlock s).env = s.env := rfl
@[simp] theorem resetBlock_draws : (resetBlock s).draws = s.draws := rfl
@[simp] theorem resetBlock_txHist : (resetBlock s).txHist = s.txHist := rfl
@[simp] theorem resetBlock_irqCount : (resetBlock s).irqCount = s.irqCount := rfl

@[simp] theorem loadExchange_busy (ph : Phase) (o : Byte) : (loadExchange ph o s).busy = s.busy := rfl
@[simp] theorem loadExchange_done (ph : Phase) (o : Byte) : (loadExchange ph o s).done = s.done := rfl
@[simp] theorem loadExchange_chkErr (ph : Phase) (o : Byte) : (loadExchange ph o s).chkErr = s.chkErr := rfl
@[simp] theorem loadExchange_noMeas (ph : Phase) (o : Byte) : (loadExchange ph o s).noMeas = s.noMeas := rfl
@[simp] theorem loadExchange_reportChkInvalid (ph : Phase) (o : Byte) : (loadExchange ph o s).reportChkInvalid = s.reportChkInvalid := rfl
@[simp] theorem loadExchange_illegal (ph : Phase) (o : Byte) : (loadExchange ph o s).illegal = s.illegal := rfl
@[simp] theorem loadExchange_overrun (ph : Phase) (o : Byte) : (loadExchange ph o s).overrun = s.overrun := rfl
@[simp] theorem loadExchange_modeCur (ph : Phase) (o : Byte) : (loadExchange ph o s).modeCur = s.modeCur := rfl
@[simp] theorem loadExchange_outcome (ph : Phase) (o : Byte) : (loadExchange ph o s).outcome = s.outcome := rfl
@[simp] theorem loadExchange_stateCode (ph : Phase) (o : Byte) : (loadExchange ph o s).stateCode = s.stateCode := rfl
@[simp] theorem loadExchange_pm1Cnt (ph : Phase) (o : Byte) : (loadExchange ph o s).pm1Cnt = s.pm1Cnt := rfl
@[simp] theorem loadExchange_pm1DenRaw (ph : Phase) (o : Byte) : (loadExchange ph o s).pm1DenRaw = s.pm1DenRaw := rfl
@[simp] theorem loadExchange_pm25Cnt (ph : Phase) (o : Byte) : (loadExchange ph o s).pm25Cnt = s.pm25Cnt := rfl
@[simp] theorem loadExchange_pm25DenRaw (ph : Phase) (o : Byte) : (loadExchange ph o s).pm25DenRaw = s.pm25DenRaw := rfl
@[simp] theorem loadExchange_pm10Cnt (ph : Phase) (o : Byte) : (loadExchange ph o s).pm10Cnt = s.pm10Cnt := rfl
@[simp] theorem loadExchange_pm10DenRaw (ph : Phase) (o : Byte) : (loadExchange ph o s).pm10DenRaw = s.pm10DenRaw := rfl
@[simp] theorem loadExchange_tRaw (ph : Phase) (o : Byte) : (loadExchange ph o s).tRaw = s.tRaw := rfl
@[simp] theorem loadExchange_hRaw (ph : Phase) (o : Byte) : (loadExchange ph o s).hRaw = s.hRaw := rfl
@[simp] theorem loadExchange_resp (ph : Phase) (o : Byte) : (loadExchange ph o s).resp = s.resp := rfl
@[simp] theorem loadExchange_respLen (ph : Phase) (o : Byte) : (loadExchange ph o s).respLen = s.respLen := rfl
@[simp] theorem loadExchange_fsm (ph : Phase) (o : Byte) : (loadExchange ph o s).fsm = .tx := rfl
@[simp] theorem loadExchange_phase (ph : Phase) (o : Byte) : (loadExchange ph o s).phase = ph := rfl
@[simp] theorem loadExchange_opL (ph : Phase) (o : Byte) : (loadExchange ph o s).opL = s.opL := rfl
@[simp] theorem loadExchange_modeL (ph : Phase) (o : Byte) : (loadExchange ph o s).modeL = s.modeL := rfl
@[simp] theorem loadExchange_addrL (ph : Phase) (o : Byte) : (loadExchange ph o s).addrL = s.addrL := rfl
@[simp] theorem loadExchange_frame (ph : Phase) (o : Byte) : (loadExchange ph o s).frame = buildCommand s.addrL o := rfl
@[simp] theorem loadExchange_txi (ph : Phase) (o : Byte) : (loadExchange ph o s).txi = 0 := rfl
@[simp] theorem loadExchange_waitSel (ph : Phase) (o : Byte) : (loadExchange ph o s).waitSel = waitSelOf s.opL ph := rfl
@[simp] theorem loadExchange_drainEn (ph : Phase) (o : Byte) : (loadExchange ph o s).drainEn = drainEnOf s.opL ph := rfl
@[simp] theorem loadExchange_sum (ph : Phase) (o : Byte) : (loadExchange ph o s).sum = s.sum := rfl
@[simp] theorem loadExchange_rxBuf (ph : Phase) (o : Byte) : (loadExchange ph o s).rxBuf = s.rxBuf := rfl
@[simp] theorem loadExchange_devAddr (ph : Phase) (o : Byte) : (loadExchange ph o s).devAddr = s.devAddr := rfl
@[simp] theorem loadExchange_txReady (ph : Phase) (o : Byte) : (loadExchange ph o s).txReady = s.txReady := rfl
@[simp] theorem loadExchange_env (ph : Phase) (o : Byte) : (loadExchange ph o s).env = s.env := rfl
@[simp] theorem loadExchange_draws (ph : Phase) (o : Byte) : (loadExchange ph o s).draws = s.draws := rfl
@[simp] theorem loadExchange_txHist (ph : Phase) (o : Byte) : (loadExchange ph o s).txHist = s.txHist := rfl
@[simp] theorem loadExchange_irqCount (ph : Phase) (o : Byte) : (loadExchange ph o s).irqCount = s.irqCount := rfl

@[simp] theorem finish_busy (c : OutcomeCode) : (finish c s).busy = false := rfl
@[simp] theorem finish_done (c : OutcomeCode) : (finish c s).done = true := rfl
@[simp] theorem finish_chkErr (c : OutcomeCode) : (finish c s).chkErr = s.chkErr := rfl
@[simp] theorem finish_noMeas (c : OutcomeCode) : (finish c s).noMeas = s.noMeas := rfl
@[simp] theorem finish_reportChkInvalid (c : OutcomeCode) : (finish c s).reportChkInvalid = s.reportChkInvalid := rfl
@[simp] theorem finish_illegal (c : OutcomeCode) : (finish c s).illegal = s.illegal := rfl
@[simp] theorem finish_overrun (c : OutcomeCode) : (finish c s).overrun = s.overrun := rfl
@[simp] theorem finish_modeCur (c : OutcomeCode) : (finish c s).modeCur = s.modeCur := rfl
@[simp] theorem finish_outcome (c : OutcomeCode) : (finish c s).outcome = c := rfl
@[simp] theorem finish_stateCode (c : OutcomeCode) : (finish c s).stateCode = s.stateCode := rfl
@[simp] theorem finish_pm1Cnt (c : OutcomeCode) : (finish c s).pm1Cnt = s.pm1Cnt := rfl
@[simp] theorem finish_pm1DenRaw (c : OutcomeCode) : (finish c s).pm1DenRaw = s.pm1DenRaw := rfl
@[simp] theorem finish_pm25Cnt (c : OutcomeCode) : (finish c s).pm25Cnt = s.pm25Cnt := rfl
@[simp] theorem finish_pm25DenRaw (c : OutcomeCode) : (finish c s).pm25DenRaw = s.pm25DenRaw := rfl
@[simp] theorem finish_pm10Cnt (c : OutcomeCode) : (finish c s).pm10Cnt = s.pm10Cnt := rfl
@[simp] theorem finish_pm10DenRaw (c : OutcomeCode) : (finish c s).pm10DenRaw = s.pm10DenRaw := rfl
@[simp] theorem finish_tRaw (c : OutcomeCode) : (finish c s).tRaw = s.tRaw := rfl
@[simp] theorem finish_hRaw (c : OutcomeCode) : (finish c s).hRaw = s.hRaw := rfl
@[simp] theorem finish_resp (c : OutcomeCode) : (finish c s).resp = s.resp := rfl
@[simp] theorem finish_respLen (c : OutcomeCode) : (finish c s).respLen = s.respLen := rfl
@[simp] theorem finish_fsm (c : OutcomeCode) : (finish c s).fsm = .idle := rfl
@[simp] theorem finish_phase (c : OutcomeCode) : (finish c s).phase = s.phase := rfl
@[simp] theorem finish_opL (c : OutcomeCode) : (finish c s).opL = s.opL := rfl
@[simp] theorem finish_modeL (c : OutcomeCode) : (finish c s).modeL = s.modeL := rfl
@[simp] theorem finish_addrL (c : OutcomeCode) : (finish c s).addrL = s.addrL := rfl
@[simp] theorem finish_frame (c : OutcomeCode) : (finish c s).frame = s.frame := rfl
@[simp] theorem finish_txi (c : OutcomeCode) : (finish c s).txi = s.txi := rfl
@[simp] theorem finish_waitSel (c : OutcomeCode) : (finish c s).waitSel = s.waitSel := rfl
@[simp] theorem finish_drainEn (c : OutcomeCode) : (finish c s).drainEn = s.drainEn := rfl
@[simp] theorem finish_sum (c : OutcomeCode) : (finish c s).sum = s.sum := rfl
@[simp] theorem finish_rxBuf (c : OutcomeCode) : (finish c s).rxBuf = s.rxBuf := rfl
@[simp] theorem finish_devAddr (c : OutcomeCode) : (finish c s).devAddr = s.devAddr := rfl
@[simp] theorem finish_txReady (c : OutcomeCode) : (finish c s).txReady = s.txReady := rfl
@[simp] theorem finish_env (c : OutcomeCode) : (finish c s).env = s.env := rfl
@[simp] theorem finish_draws (c : OutcomeCode) : (finish c s).draws = s.draws := rfl
@[simp] theorem finish_txHist (c : OutcomeCode) : (finish c s).txHist = s.txHist := rfl
@[simp] theorem finish_irqCount (c : OutcomeCode) : (finish c s).irqCount = s.irqCount + 1 := rfl

@[simp] theorem raiseOverrun_busy : (raiseOverrun s).busy = s.busy := rfl
@[simp] theorem raiseOverrun_done : (raiseOverrun s).done = s.done := rfl
@[simp] theorem raiseOverrun_chkErr : (raiseOverrun s).chkErr = s.chkErr := rfl
@[simp] theorem raiseOverrun_noMeas : (raiseOverrun s).noMeas = s.noMeas := rfl
@[simp] theorem raiseOverrun_reportChkInvalid : (raiseOverrun s).reportChkInvalid = s.reportChkInvalid := rfl
@[simp] theorem raiseOverrun_illegal : (raiseOverrun s).illegal = s.illegal := rfl
@[simp] theorem raiseOverrun_overrun : (raiseOverrun s).overrun = true := rfl
@[simp] theorem raiseOverrun_modeCur : (raiseOverrun s).modeCur = s.modeCur := rfl
@[simp] theorem raiseOverrun_outcome : (raiseOverrun s).outcome = s.outcome := rfl
@[simp] theorem raiseOverrun_stateCode : (raiseOverrun s).stateCode = s.stateCode := rfl
@[simp] theorem raiseOverrun_pm1Cnt : (raiseOverrun s).pm1Cnt = s.pm1Cnt := rfl
@[simp] theorem raiseOverrun_pm1DenRaw : (raiseOverrun s).pm1DenRaw = s.pm1DenRaw := rfl
@[simp] theorem raiseOverrun_pm25Cnt : (raiseOverrun s).pm25Cnt = s.pm25Cnt := rfl
@[simp] theorem raiseOverrun_pm25DenRaw : (raiseOverrun s).pm25DenRaw = s.pm25DenRaw := rfl
@[simp] theorem raiseOverrun_pm10Cnt : (raiseOverrun s).pm10Cnt = s.pm10Cnt := rfl
@[simp] theorem raiseOverrun_pm10DenRaw : (raiseOverrun s).pm10DenRaw = s.pm10DenRaw := rfl
@[simp] theorem raiseOverrun_tRaw : (raiseOverrun s).tRaw = s.tRaw := rfl
@[simp] theorem raiseOverrun_hRaw : (raiseOverrun s).hRaw = s.hRaw := rfl
@[simp] theorem raiseOverrun_resp : (raiseOverrun s).resp = s.resp := rfl
@[simp] theorem raiseOverrun_respLen : (raiseOverrun s).respLen = s.respLen := rfl
@[simp] theorem raiseOverrun_fsm : (raiseOverrun s).fsm = s.fsm := rfl
@[simp] theorem raiseOverrun_phase : (raiseOverrun s).phase = s.phase := rfl
@[simp] theorem raiseOverrun_opL : (raiseOverrun s).opL = s.opL := rfl
@[simp] theorem raiseOverrun_modeL : (raiseOverrun s).modeL = s.modeL := rfl
@[simp] theorem raiseOverrun_addrL : (raiseOverrun s).addrL = s.addrL := rfl
@[simp] theorem raiseOverrun_frame : (raiseOverrun s).frame = s.frame := rfl
@[simp] theorem raiseOverrun_txi : (raiseOverrun s).txi = s.txi := rfl
@[simp] theorem raiseOverrun_waitSel : (raiseOverrun s).waitSel = s.waitSel := rfl
@[simp] theorem raiseOverrun_drainEn : (raiseOverrun s).drainEn = s.drainEn := rfl
@[simp] theorem raiseOverrun_sum : (raiseOverrun s).sum = s.sum := rfl
@[simp] theorem raiseOverrun_rxBuf : (raiseOverrun s).rxBuf = s.rxBuf := rfl
@[simp] theorem raiseOverrun_devAddr : (raiseOverrun s).devAddr = s.devAddr := rfl
@[simp] theorem raiseOverrun_txReady : (raiseOverrun s).txReady = s.txReady := rfl
@[simp] theorem raiseOverrun_env : (raiseOverrun s).env = s.env := rfl
@[simp] theorem raiseOverrun_draws : (raiseOverrun s).draws = s.draws := rfl
@[simp] theorem raiseOverrun_txHist : (raiseOverrun s).txHist = s.txHist := rfl
@[simp] theorem raiseOverrun_irqCount : (raiseOverrun s).irqCount = s.irqCount := rfl

@[simp] theorem raiseIllegal_busy : (raiseIllegal s).busy = s.busy := rfl
@[simp] theorem raiseIllegal_done : (raiseIllegal s).done = s.done := rfl
@[simp] theorem raiseIllegal_chkErr : (raiseIllegal s).chkErr = s.chkErr := rfl
@[simp] theorem raiseIllegal_noMeas : (raiseIllegal s).noMeas = s.noMeas := rfl
@[simp] theorem raiseIllegal_reportChkInvalid : (raiseIllegal s).reportChkInvalid = s.reportChkInvalid := rfl
@[simp] theorem raiseIllegal_illegal : (raiseIllegal s).illegal = true := rfl
@[simp] theorem raiseIllegal_overrun : (raiseIllegal s).overrun = s.overrun := rfl
@[simp] theorem raiseIllegal_modeCur : (raiseIllegal s).modeCur = s.modeCur := rfl
@[simp] theorem raiseIllegal_outcome : (raiseIllegal s).outcome = s.outcome := rfl
@[simp] theorem raiseIllegal_stateCode : (raiseIllegal s).stateCode = s.stateCode := rfl
@[simp] theorem raiseIllegal_pm1Cnt : (raiseIllegal s).pm1Cnt = s.pm1Cnt := rfl
@[simp] theorem raiseIllegal_pm1DenRaw : (raiseIllegal s).pm1DenRaw = s.pm1DenRaw := rfl
@[simp] theorem raiseIllegal_pm25Cnt : (raiseIllegal s).pm25Cnt = s.pm25Cnt := rfl
@[simp] theorem raiseIllegal_pm25DenRaw : (raiseIllegal s).pm25DenRaw = s.pm25DenRaw := rfl
@[simp] theorem raiseIllegal_pm10Cnt : (raiseIllegal s).pm10Cnt = s.pm10Cnt := rfl
@[simp] theorem raiseIllegal_pm10DenRaw : (raiseIllegal s).pm10DenRaw = s.pm10DenRaw := rfl
@[simp] theorem raiseIllegal_tRaw : (raiseIllegal s).tRaw = s.tRaw := rfl
@[simp] theorem raiseIllegal_hRaw : (raiseIllegal s).hRaw = s.hRaw := rfl
@[simp] theorem raiseIllegal_resp : (raiseIllegal s).resp = s.resp := rfl
@[simp] theorem raiseIllegal_respLen : (raiseIllegal s).respLen = s.respLen := rfl
@[simp] theorem raiseIllegal_fsm : (raiseIllegal s).fsm = s.fsm := rfl
@[simp] theorem raiseIllegal_phase : (raiseIllegal s).phase = s.phase := rfl
@[simp] theorem raiseIllegal_opL : (raiseIllegal s).opL = s.opL := rfl
@[simp] theorem raiseIllegal_modeL : (raiseIllegal s).modeL = s.modeL := rfl
@[simp] theorem raiseIllegal_addrL : (raiseIllegal s).addrL = s.addrL := rfl
@[simp] theorem raiseIllegal_frame : (raiseIllegal s).frame = s.frame := rfl
@[simp] theorem raiseIllegal_txi : (raiseIllegal s).txi = s.txi := rfl
@[simp] theorem raiseIllegal_waitSel : (raiseIllegal s).waitSel = s.waitSel := rfl
@[simp] theorem raiseIllegal_drainEn : (raiseIllegal s).drainEn = s.drainEn := rfl
@[simp] theorem raiseIllegal_sum : (raiseIllegal s).sum = s.sum := rfl
@[simp] theorem raiseIllegal_rxBuf : (raiseIllegal s).rxBuf = s.rxBuf := rfl
@[simp] theorem raiseIllegal_devAddr : (raiseIllegal s).devAddr = s.devAddr := rfl
@[simp] theorem raiseIllegal_txReady : (raiseIllegal s).txReady = s.txReady := rfl
@[simp] theorem raiseIllegal_env : (raiseIllegal s).env = s.env := rfl
@[simp] theorem raiseIllegal_draws : (raiseIllegal s).draws = s.draws := rfl
@[simp] theorem raiseIllegal_txHist : (raiseIllegal s).txHist = s.txHist := rfl
@[simp] theorem raiseIllegal_irqCount : (raiseIllegal s).irqCount = s.irqCount := rfl

@[simp] theorem latchWord_busy (op : HostOp) (m : Mode) : (latchWord op m s).busy = true := rfl
@[simp] theorem latchWord_done (op : HostOp) (m : Mode) : (latchWord op m s).done = false := rfl
@[simp] theorem latchWord_chkErr (op : HostOp) (m : Mode) : (latchWord op m s).chkErr = s.chkErr := rfl
@[simp] theorem latchWord_noMeas (op : HostOp) (m : Mode) : (latchWord op m s).noMeas = s.noMeas := rfl
@[simp] theorem latchWord_reportChkInvalid (op : HostOp) (m : Mode) : (latchWord op m s).reportChkInvalid = s.reportChkInvalid := rfl
@[simp] theorem latchWord_illegal (op : HostOp) (m : Mode) : (latchWord op m s).illegal = s.illegal := rfl
@[simp] theorem latchWord_overrun (op : HostOp) (m : Mode) : (latchWord op m s).overrun = s.overrun := rfl
@[simp] theorem latchWord_modeCur (op : HostOp) (m : Mode) : (latchWord op m s).modeCur = s.modeCur := rfl
@[simp] theorem latchWord_outcome (op : HostOp) (m : Mode) : (latchWord op m s).outcome = s.outcome := rfl
@[simp] theorem latchWord_stateCode (op : HostOp) (m : Mode) : (latchWord op m s).stateCode = s.stateCode := rfl
@[simp] theorem latchWord_pm1Cnt (op : HostOp) (m : Mode) : (latchWord op m s).pm1Cnt = s.pm1Cnt := rfl
@[simp] theorem latchWord_pm1DenRaw (op : HostOp) (m : Mode) : (latchWord op m s).pm1DenRaw = s.pm1DenRaw := rfl
@[simp] theorem latchWord_pm25Cnt (op : HostOp) (m : Mode) : (latchWord op m s).pm25Cnt = s.pm25Cnt := rfl
@[simp] theorem latchWord_pm25DenRaw (op : HostOp) (m : Mode) : (latchWord op m s).pm25DenRaw = s.pm25DenRaw := rfl
@[simp] theorem latchWord_pm10Cnt (op : HostOp) (m : Mode) : (latchWord op m s).pm10Cnt = s.pm10Cnt := rfl
@[simp] theorem latchWord_pm10DenRaw (op : HostOp) (m : Mode) : (latchWord op m s).pm10DenRaw = s.pm10DenRaw := rfl
@[simp] theorem latchWord_tRaw (op : HostOp) (m : Mode) : (latchWord op m s).tRaw = s.tRaw := rfl
@[simp] theorem latchWord_hRaw (op : HostOp) (m : Mode) : (latchWord op m s).hRaw = s.hRaw := rfl
@[simp] theorem latchWord_resp (op : HostOp) (m : Mode) : (latchWord op m s).resp = s.resp := rfl
@[simp] theorem latchWord_respLen (op : HostOp) (m : Mode) : (latchWord op m s).respLen = s.respLen := rfl
@[simp] theorem latchWord_fsm (op : HostOp) (m : Mode) : (latchWord op m s).fsm = s.fsm := rfl
@[simp] theorem latchWord_phase (op : HostOp) (m : Mode) : (latchWord op m s).phase = s.phase := rfl
@[simp] theorem latchWord_opL (op : HostOp) (m : Mode) : (latchWord op m s).opL = op := rfl
@[simp] theorem latchWord_modeL (op : HostOp) (m : Mode) : (latchWord op m s).modeL = m := rfl
@[simp] theorem latchWord_addrL (op : HostOp) (m : Mode) : (latchWord op m s).addrL = s.devAddr := rfl
@[simp] theorem latchWord_frame (op : HostOp) (m : Mode) : (latchWord op m s).frame = s.frame := rfl
@[simp] theorem latchWord_txi (op : HostOp) (m : Mode) : (latchWord op m s).txi = s.txi := rfl
@[simp] theorem latchWord_waitSel (op : HostOp) (m : Mode) : (latchWord op m s).waitSel = s.waitSel := rfl
@[simp] theorem latchWord_drainEn (op : HostOp) (m : Mode) : (latchWord op m s).drainEn = s.drainEn := rfl
@[simp] theorem latchWord_sum (op : HostOp) (m : Mode) : (latchWord op m s).sum = s.sum := rfl
@[simp] theorem latchWord_rxBuf (op : HostOp) (m : Mode) : (latchWord op m s).rxBuf = s.rxBuf := rfl
@[simp] theorem latchWord_devAddr (op : HostOp) (m : Mode) : (latchWord op m s).devAddr = s.devAddr := rfl
@[simp] theorem latchWord_txReady (op : HostOp) (m : Mode) : (latchWord op m s).txReady = s.txReady := rfl
@[simp] theorem latchWord_env (op : HostOp) (m : Mode) : (latchWord op m s).env = s.env := rfl
@[simp] theorem latchWord_draws (op : HostOp) (m : Mode) : (latchWord op m s).draws = s.draws := rfl
@[simp] theorem latchWord_txHist (op : HostOp) (m : Mode) : (latchWord op m s).txHist = s.txHist := rfl
@[simp] theorem latchWord_irqCount (op : HostOp) (m : Mode) : (latchWord op m s).irqCount = s.irqCount := rfl

@[simp] theorem txByte_busy (b : Byte) : (txByte b s).busy = s.busy := rfl
@[simp] theorem txByte_done (b : Byte) : (txByte b s).done = s.done := rfl
@[simp] theorem txByte_chkErr (b : Byte) : (txByte b s).chkErr = s.chkErr := rfl
@[simp] theorem txByte_noMeas (b : Byte) : (txByte b s).noMeas = s.noMeas := rfl
@[simp] theorem txByte_reportChkInvalid (b : Byte) : (txByte b s).reportChkInvalid = s.reportChkInvalid := rfl
@[simp] theorem txByte_illegal (b : Byte) : (txByte b s).illegal = s.illegal := rfl
@[simp] theorem txByte_overrun (b : Byte) : (txByte b s).overrun = s.overrun := rfl
@[simp] theorem txByte_modeCur (b : Byte) : (txByte b s).modeCur = s.modeCur := rfl
@[simp] theorem txByte_outcome (b : Byte) : (txByte b s).outcome = s.outcome := rfl
@[simp] theorem txByte_stateCode (b : Byte) : (txByte b s).stateCode = s.stateCode := rfl
@[simp] theorem txByte_pm1Cnt (b : Byte) : (txByte b s).pm1Cnt = s.pm1Cnt := rfl
@[simp] theorem txByte_pm1DenRaw (b : Byte) : (txByte b s).pm1DenRaw = s.pm1DenRaw := rfl
@[simp] theorem txByte_pm25Cnt (b : Byte) : (txByte b s).pm25Cnt = s.pm25Cnt := rfl
@[simp] theorem txByte_pm25DenRaw (b : Byte) : (txByte b s).pm25DenRaw = s.pm25DenRaw := rfl
@[simp] theorem txByte_pm10Cnt (b : Byte) : (txByte b s).pm10Cnt = s.pm10Cnt := rfl
@[simp] theorem txByte_pm10DenRaw (b : Byte) : (txByte b s).pm10DenRaw = s.pm10DenRaw := rfl
@[simp] theorem txByte_tRaw (b : Byte) : (txByte b s).tRaw = s.tRaw := rfl
@[simp] theorem txByte_hRaw (b : Byte) : (txByte b s).hRaw = s.hRaw := rfl
@[simp] theorem txByte_resp (b : Byte) : (txByte b s).resp = s.resp := rfl
@[simp] theorem txByte_respLen (b : Byte) : (txByte b s).respLen = s.respLen := rfl
@[simp] theorem txByte_fsm (b : Byte) : (txByte b s).fsm = .gap := rfl
@[simp] theorem txByte_phase (b : Byte) : (txByte b s).phase = s.phase := rfl
@[simp] theorem txByte_opL (b : Byte) : (txByte b s).opL = s.opL := rfl
@[simp] theorem txByte_modeL (b : Byte) : (txByte b s).modeL = s.modeL := rfl
@[simp] theorem txByte_addrL (b : Byte) : (txByte b s).addrL = s.addrL := rfl
@[simp] theorem txByte_frame (b : Byte) : (txByte b s).frame = s.frame := rfl
@[simp] theorem txByte_txi (b : Byte) : (txByte b s).txi = s.txi := rfl
@[simp] theorem txByte_waitSel (b : Byte) : (txByte b s).waitSel = s.waitSel := rfl
@[simp] theorem txByte_drainEn (b : Byte) : (txByte b s).drainEn = s.drainEn := rfl
@[simp] theorem txByte_sum (b : Byte) : (txByte b s).sum = s.sum := rfl
@[simp] theorem txByte_rxBuf (b : Byte) : (txByte b s).rxBuf = s.rxBuf := rfl
@[simp] theorem txByte_devAddr (b : Byte) : (txByte b s).devAddr = s.devAddr := rfl
@[simp] theorem txByte_txReady (b : Byte) : (txByte b s).txReady = s.txReady := rfl
@[simp] theorem txByte_env (b : Byte) : (txByte b s).env = s.env := rfl
@[simp] theorem txByte_draws (b : Byte) : (txByte b s).draws = s.draws := rfl
@[simp] theorem txByte_txHist (b : Byte) : (txByte b s).txHist = s.txHist ++ [b] := rfl
@[simp] theorem txByte_irqCount (b : Byte) : (txByte b s).irqCount = s.irqCount := rfl

@[simp] theorem enter_busy (f : Fsm) : (enter f s).busy = s.busy := rfl
@[simp] theorem enter_done (f : Fsm) : (enter f s).done = s.done := rfl
@[simp] theorem enter_chkErr (f : Fsm) : (enter f s).chkErr = s.chkErr := rfl
@[simp] theorem enter_noMeas (f : Fsm) : (enter f s).noMeas = s.noMeas := rfl
@[simp] theorem enter_reportChkInvalid (f : Fsm) : (enter f s).reportChkInvalid = s.reportChkInvalid := rfl
@[simp] theorem enter_illegal (f : Fsm) : (enter f s).illegal = s.illegal := rfl
@[simp] theorem enter_overrun (f : Fsm) : (enter f s).overrun = s.overrun := rfl
@[simp] theorem enter_modeCur (f : Fsm) : (enter f s).modeCur = s.modeCur := rfl
@[simp] theorem enter_outcome (f : Fsm) : (enter f s).outcome = s.outcome := rfl
@[simp] theorem enter_stateCode (f : Fsm) : (enter f s).stateCode = s.stateCode := rfl
@[simp] theorem enter_pm1Cnt (f : Fsm) : (enter f s).pm1Cnt = s.pm1Cnt := rfl
@[simp] theorem enter_pm1DenRaw (f : Fsm) : (enter f s).pm1DenRaw = s.pm1DenRaw := rfl
@[simp] theorem enter_pm25Cnt (f : Fsm) : (enter f s).pm25Cnt = s.pm25Cnt := rfl
@[simp] theorem enter_pm25DenRaw (f : Fsm) : (enter f s).pm25DenRaw = s.pm25DenRaw := rfl
@[simp] theorem enter_pm10Cnt (f : Fsm) : (enter f s).pm10Cnt = s.pm10Cnt := rfl
@[simp] theorem enter_pm10DenRaw (f : Fsm) : (enter f s).pm10DenRaw = s.pm10DenRaw := rfl
@[simp] theorem enter_tRaw (f : Fsm) : (enter f s).tRaw = s.tRaw := rfl
@[simp] theorem enter_hRaw (f : Fsm) : (enter f s).hRaw = s.hRaw := rfl
@[simp] theorem enter_resp (f : Fsm) : (enter f s).resp = s.resp := rfl
@[simp] theorem enter_respLen (f : Fsm) : (enter f s).respLen = s.respLen := rfl
@[simp] theorem enter_fsm (f : Fsm) : (enter f s).fsm = f := rfl
@[simp] theorem enter_phase (f : Fsm) : (enter f s).phase = s.phase := rfl
@[simp] theorem enter_opL (f : Fsm) : (enter f s).opL = s.opL := rfl
@[simp] theorem enter_modeL (f : Fsm) : (enter f s).modeL = s.modeL := rfl
@[simp] theorem enter_addrL (f : Fsm) : (enter f s).addrL = s.addrL := rfl
@[simp] theorem enter_frame (f : Fsm) : (enter f s).frame = s.frame := rfl
@[simp] theorem enter_txi (f : Fsm) : (enter f s).txi = s.txi := rfl
@[simp] theorem enter_waitSel (f : Fsm) : (enter f s).waitSel = s.waitSel := rfl
@[simp] theorem enter_drainEn (f : Fsm) : (enter f s).drainEn = s.drainEn := rfl
@[simp] theorem enter_sum (f : Fsm) : (enter f s).sum = s.sum := rfl
@[simp] theorem enter_rxBuf (f : Fsm) : (enter f s).rxBuf = s.rxBuf := rfl
@[simp] theorem enter_devAddr (f : Fsm) : (enter f s).devAddr = s.devAddr := rfl
@[simp] theorem enter_txReady (f : Fsm) : (enter f s).txReady = s.txReady := rfl
@[simp] theorem enter_env (f : Fsm) : (enter f s).env = s.env := rfl
@[simp] theorem enter_draws (f : Fsm) : (enter f s).draws = s.draws := rfl
@[simp] theorem enter_txHist (f : Fsm) : (enter f s).txHist = s.txHist := rfl
@[simp] theorem enter_irqCount (f : Fsm) : (enter f s).irqCount = s.irqCount := rfl

@[simp] theorem nextByte_busy : (nextByte s).busy = s.busy := rfl
@[simp] theorem nextByte_done : (nextByte s).done = s.done := rfl
@[simp] theorem nextByte_chkErr : (nextByte s).chkErr = s.chkErr := rfl
@[simp] theorem nextByte_noMeas : (nextByte s).noMeas = s.noMeas := rfl
@[simp] theorem nextByte_reportChkInvalid : (nextByte s).reportChkInvalid = s.reportChkInvalid := rfl
@[simp] theorem nextByte_illegal : (nextByte s).illegal = s.illegal := rfl
@[simp] theorem nextByte_overrun : (nextByte s).overrun = s.overrun := rfl
@[simp] theorem nextByte_modeCur : (nextByte s).modeCur = s.modeCur := rfl
@[simp] theorem nextByte_outcome : (nextByte s).outcome = s.outcome := rfl
@[simp] theorem nextByte_stateCode : (nextByte s).stateCode = s.stateCode := rfl
@[simp] theorem nextByte_pm1Cnt : (nextByte s).pm1Cnt = s.pm1Cnt := rfl
@[simp] theorem nextByte_pm1DenRaw : (nextByte s).pm1DenRaw = s.pm1DenRaw := rfl
@[simp] theorem nextByte_pm25Cnt : (nextByte s).pm25Cnt = s.pm25Cnt := rfl
@[simp] theorem nextByte_pm25DenRaw : (nextByte s).pm25DenRaw = s.pm25DenRaw := rfl
@[simp] theorem nextByte_pm10Cnt : (nextByte s).pm10Cnt = s.pm10Cnt := rfl
@[simp] theorem nextByte_pm10DenRaw : (nextByte s).pm10DenRaw = s.pm10DenRaw := rfl
@[simp] theorem nextByte_tRaw : (nextByte s).tRaw = s.tRaw := rfl
@[simp] theorem nextByte_hRaw : (nextByte s).hRaw = s.hRaw := rfl
@[simp] theorem nextByte_resp : (nextByte s).resp = s.resp := rfl
@[simp] theorem nextByte_respLen : (nextByte s).respLen = s.respLen := rfl
@[simp] theorem nextByte_fsm : (nextByte s).fsm = .tx := rfl
@[simp] theorem nextByte_phase : (nextByte s).phase = s.phase := rfl
@[simp] theorem nextByte_opL : (nextByte s).opL = s.opL := rfl
@[simp] theorem nextByte_modeL : (nextByte s).modeL = s.modeL := rfl
@[simp] theorem nextByte_addrL : (nextByte s).addrL = s.addrL := rfl
@[simp] theorem nextByte_frame : (nextByte s).frame = s.frame := rfl
@[simp] theorem nextByte_txi : (nextByte s).txi = s.txi + 1 := rfl
@[simp] theorem nextByte_waitSel : (nextByte s).waitSel = s.waitSel := rfl
@[simp] theorem nextByte_drainEn : (nextByte s).drainEn = s.drainEn := rfl
@[simp] theorem nextByte_sum : (nextByte s).sum = s.sum := rfl
@[simp] theorem nextByte_rxBuf : (nextByte s).rxBuf = s.rxBuf := rfl
@[simp] theorem nextByte_devAddr : (nextByte s).devAddr = s.devAddr := rfl
@[simp] theorem nextByte_txReady : (nextByte s).txReady = s.txReady := rfl
@[simp] theorem nextByte_env : (nextByte s).env = s.env := rfl
@[simp] theorem nextByte_draws : (nextByte s).draws = s.draws := rfl
@[simp] theorem nextByte_txHist : (nextByte s).txHist = s.txHist := rfl
@[simp] theorem nextByte_irqCount : (nextByte s).irqCount = s.irqCount := rfl

@[simp] theorem popRx_busy (rest : List Byte) : (popRx rest s).busy = s.busy := rfl
@[simp] theorem popRx_done (rest : List Byte) : (popRx rest s).done = s.done := rfl
@[simp] theorem popRx_chkErr (rest : List Byte) : (popRx rest s).chkErr = s.chkErr := rfl
@[simp] theorem popRx_noMeas (rest : List Byte) : (popRx rest s).noMeas = s.noMeas := rfl
@[simp] theorem popRx_reportChkInvalid (rest : List Byte) : (popRx rest s).reportChkInvalid = s.reportChkInvalid := rfl
@[simp] theorem popRx_illegal (rest : List Byte) : (popRx rest s).illegal = s.illegal := rfl
@[simp] theorem popRx_overrun (rest : List Byte) : (popRx rest s).overrun = s.overrun := rfl
@[simp] theorem popRx_modeCur (rest : List Byte) : (popRx rest s).modeCur = s.modeCur := rfl
@[simp] theorem popRx_outcome (rest : List Byte) : (popRx rest s).outcome = s.outcome := rfl
@[simp] theorem popRx_stateCode (rest : List Byte) : (popRx rest s).stateCode = s.stateCode := rfl
@[simp] theorem popRx_pm1Cnt (rest : List Byte) : (popRx rest s).pm1Cnt = s.pm1Cnt := rfl
@[simp] theorem popRx_pm1DenRaw (rest : List Byte) : (popRx rest s).pm1DenRaw = s.pm1DenRaw := rfl
@[simp] theorem popRx_pm25Cnt (rest : List Byte) : (popRx rest s).pm25Cnt = s.pm25Cnt := rfl
@[simp] theorem popRx_pm25DenRaw (rest : List Byte) : (popRx rest s).pm25DenRaw = s.pm25DenRaw := rfl
@[simp] theorem popRx_pm10Cnt (rest : List Byte) : (popRx rest s).pm10Cnt = s.pm10Cnt := rfl
@[simp] theorem popRx_pm10DenRaw (rest : List Byte) : (popRx rest s).pm10DenRaw = s.pm10DenRaw := rfl
@[simp] theorem popRx_tRaw (rest : List Byte) : (popRx rest s).tRaw = s.tRaw := rfl
@[simp] theorem popRx_hRaw (rest : List Byte) : (popRx rest s).hRaw = s.hRaw := rfl
@[simp] theorem popRx_resp (rest : List Byte) : (popRx rest s).resp = s.resp := rfl
@[simp] theorem popRx_respLen (rest : List Byte) : (popRx rest s).respLen = s.respLen := rfl
@[simp] theorem popRx_fsm (rest : List Byte) : (popRx rest s).fsm = s.fsm := rfl
@[simp] theorem popRx_phase (rest : List Byte) : (popRx rest s).phase = s.phase := rfl
@[simp] theorem popRx_opL (rest : List Byte) : (popRx rest s).opL = s.opL := rfl
@[simp] theorem popRx_modeL (rest : List Byte) : (popRx rest s).modeL = s.modeL := rfl
@[simp] theorem popRx_addrL (rest : List Byte) : (popRx rest s).addrL = s.addrL := rfl
@[simp] theorem popRx_frame (rest : List Byte) : (popRx rest s).frame = s.frame := rfl
@[simp] theorem popRx_txi (rest : List Byte) : (popRx rest s).txi = s.txi := rfl
@[simp] theorem popRx_waitSel (rest : List Byte) : (popRx rest s).waitSel = s.waitSel := rfl
@[simp] theorem popRx_drainEn (rest : List Byte) : (popRx rest s).drainEn = s.drainEn := rfl
@[simp] theorem popRx_sum (rest : List Byte) : (popRx rest s).sum = s.sum := rfl
@[simp] theorem popRx_rxBuf (rest : List Byte) : (popRx rest s).rxBuf = rest := rfl
@[simp] theorem popRx_devAddr (rest : List Byte) : (popRx rest s).devAddr = s.devAddr := rfl
@[simp] theorem popRx_txReady (rest : List Byte) : (popRx rest s).txReady = s.txReady := rfl
@[simp] theorem popRx_env (rest : List Byte) : (popRx rest s).env = s.env := rfl
@[simp] theorem popRx_draws (rest : List Byte) : (popRx rest s).draws = s.draws := rfl
@[simp] theorem popRx_txHist (rest : List Byte) : (popRx rest s).txHist = s.txHist := rfl
@[simp] theorem popRx_irqCount (rest : List Byte) : (popRx rest s).irqCount = s.irqCount := rfl

@[simp] theorem drainStart_busy : (drainStart s).busy = s.busy := rfl
@[simp] theorem drainStart_done : (drainStart s).done = s.done := rfl
@[simp] theorem drainStart_chkErr : (drainStart s).chkErr = s.chkErr := rfl
@[simp] theorem drainStart_noMeas : (drainStart s).noMeas = s.noMeas := rfl
@[simp] theorem drainStart_reportChkInvalid : (drainStart s).reportChkInvalid = s.reportChkInvalid := rfl
@[simp] theorem drainStart_illegal : (drainStart s).illegal = s.illegal := rfl
@[simp] theorem drainStart_overrun : (drainStart s).overrun = s.overrun := rfl
@[simp] theorem drainStart_modeCur : (drainStart s).modeCur = s.modeCur := rfl
@[simp] theorem drainStart_outcome : (drainStart s).outcome = s.outcome := rfl
@[simp] theorem drainStart_stateCode : (drainStart s).stateCode = s.stateCode := rfl
@[simp] theorem drainStart_pm1Cnt : (drainStart s).pm1Cnt = s.pm1Cnt := rfl
@[simp] theorem drainStart_pm1DenRaw : (drainStart s).pm1DenRaw = s.pm1DenRaw := rfl
@[simp] theorem drainStart_pm25Cnt : (drainStart s).pm25Cnt = s.pm25Cnt := rfl
@[simp] theorem drainStart_pm25DenRaw : (drainStart s).pm25DenRaw = s.pm25DenRaw := rfl
@[simp] theorem drainStart_pm10Cnt : (drainStart s).pm10Cnt = s.pm10Cnt := rfl
@[simp] theorem drainStart_pm10DenRaw : (drainStart s).pm10DenRaw = s.pm10DenRaw := rfl
@[simp] theorem drainStart_tRaw : (drainStart s).tRaw = s.tRaw := rfl
@[simp] theorem drainStart_hRaw : (drainStart s).hRaw = s.hRaw := rfl
@[simp] theorem drainStart_resp : (drainStart s).resp = [] := rfl
@[simp] theorem drainStart_respLen : (drainStart s).respLen = 0 := rfl
@[simp] theorem drainStart_fsm : (drainStart s).fsm = .drain := rfl
@[simp] theorem drainStart_phase : (drainStart s).phase = s.phase := rfl
@[simp] theorem drainStart_opL : (drainStart s).opL = s.opL := rfl
@[simp] theorem drainStart_modeL : (drainStart s).modeL = s.modeL := rfl
@[simp] theorem drainStart_addrL : (drainStart s).addrL = s.addrL := rfl
@[simp] theorem drainStart_frame : (drainStart s).frame = s.frame := rfl
@[simp] theorem drainStart_txi : (drainStart s).txi = s.txi := rfl
@[simp] theorem drainStart_waitSel : (drainStart s).waitSel = s.waitSel := rfl
@[simp] theorem drainStart_drainEn : (drainStart s).drainEn = s.drainEn := rfl
@[simp] theorem drainStart_sum : (drainStart s).sum = 0 := rfl
@[simp] theorem drainStart_rxBuf : (drainStart s).rxBuf = s.rxBuf := rfl
@[simp] theorem drainStart_devAddr : (drainStart s).devAddr = s.devAddr := rfl
@[simp] theorem drainStart_txReady : (drainStart s).txReady = s.txReady := rfl
@[simp] theorem drainStart_env : (drainStart s).env = s.env := rfl
@[simp] theorem drainStart_draws : (drainStart s).draws = s.draws := rfl
@[simp] theorem drainStart_txHist : (drainStart s).txHist = s.txHist := rfl
@[simp] theorem drainStart_irqCount : (drainStart s).irqCount = s.irqCount := rfl

@[simp] theorem storeByte_busy (b : Byte) : (storeByte b s).busy = s.busy := rfl
@[simp] theorem storeByte_done (b : Byte) : (storeByte b s).done = s.done := rfl
@[simp] theorem storeByte_chkErr (b : Byte) : (storeByte b s).chkErr = s.chkErr := rfl
@[simp] theorem storeByte_noMeas (b : Byte) : (storeByte b s).noMeas = s.noMeas := rfl
@[simp] theorem storeByte_reportChkInvalid (b : Byte) : (storeByte b s).reportChkInvalid = s.reportChkInvalid := rfl
@[simp] theorem storeByte_illegal (b : Byte) : (storeByte b s).illegal = s.illegal := rfl
@[simp] theorem storeByte_overrun (b : Byte) : (storeByte b s).overrun = s.overrun := rfl
@[simp] theorem storeByte_modeCur (b : Byte) : (storeByte b s).modeCur = s.modeCur := rfl
@[simp] theorem storeByte_outcome (b : Byte) : (storeByte b s).outcome = s.outcome := rfl
@[simp] theorem storeByte_stateCode (b : Byte) : (storeByte b s).stateCode = s.stateCode := rfl
@[simp] theorem storeByte_pm1Cnt (b : Byte) : (storeByte b s).pm1Cnt = s.pm1Cnt := rfl
@[simp] theorem storeByte_pm1DenRaw (b : Byte) : (storeByte b s).pm1DenRaw = s.pm1DenRaw := rfl
@[simp] theorem storeByte_pm25Cnt (b : Byte) : (storeByte b s).pm25Cnt = s.pm25Cnt := rfl
@[simp] theorem storeByte_pm25DenRaw (b : Byte) : (storeByte b s).pm25DenRaw = s.pm25DenRaw := rfl
@[simp] theorem storeByte_pm10Cnt (b : Byte) : (storeByte b s).pm10Cnt = s.pm10Cnt := rfl
@[simp] theorem storeByte_pm10DenRaw (b : Byte) : (storeByte b s).pm10DenRaw = s.pm10DenRaw := rfl
@[simp] theorem storeByte_tRaw (b : Byte) : (storeByte b s).tRaw = s.tRaw := rfl
@[simp] theorem storeByte_hRaw (b : Byte) : (storeByte b s).hRaw = s.hRaw := rfl
@[simp] theorem storeByte_resp (b : Byte) : (storeByte b s).resp = s.resp.write s.respLen.toNat b := rfl
@[simp] theorem storeByte_respLen (b : Byte) : (storeByte b s).respLen = s.respLen + 1 := rfl
@[simp] theorem storeByte_fsm (b : Byte) : (storeByte b s).fsm = s.fsm := rfl
@[simp] theorem storeByte_phase (b : Byte) : (storeByte b s).phase = s.phase := rfl
@[simp] theorem storeByte_opL (b : Byte) : (storeByte b s).opL = s.opL := rfl
@[simp] theorem storeByte_modeL (b : Byte) : (storeByte b s).modeL = s.modeL := rfl
@[simp] theorem storeByte_addrL (b : Byte) : (storeByte b s).addrL = s.addrL := rfl
@[simp] theorem storeByte_frame (b : Byte) : (storeByte b s).frame = s.frame := rfl
@[simp] theorem storeByte_txi (b : Byte) : (storeByte b s).txi = s.txi := rfl
@[simp] theorem storeByte_waitSel (b : Byte) : (storeByte b s).waitSel = s.waitSel := rfl
@[simp] theorem storeByte_drainEn (b : Byte) : (storeByte b s).drainEn = s.drainEn := rfl
@[simp] theorem storeByte_sum (b : Byte) : (storeByte b s).sum = s.sum + b := rfl
@[simp] theorem storeByte_rxBuf (b : Byte) : (storeByte b s).rxBuf = s.rxBuf := rfl
@[simp] theorem storeByte_devAddr (b : Byte) : (storeByte b s).devAddr = s.devAddr := rfl
@[simp] theorem storeByte_txReady (b : Byte) : (storeByte b s).txReady = s.txReady := rfl
@[simp] theorem storeByte_env (b : Byte) : (storeByte b s).env = s.env := rfl
@[simp] theorem storeByte_draws (b : Byte) : (storeByte b s).draws = s.draws := rfl
@[simp] theorem storeByte_txHist (b : Byte) : (storeByte b s).txHist = s.txHist := rfl
@[simp] theorem storeByte_irqCount (b : Byte) : (storeByte b s).irqCount = s.irqCount := rfl

@[simp] theorem drainEnd_busy : (drainEnd s).busy = s.busy := rfl
@[simp] theorem drainEnd_done : (drainEnd s).done = s.done := rfl
@[simp] theorem drainEnd_chkErr : (drainEnd s).chkErr = checksumVerdict s.sum := rfl
@[simp] theorem drainEnd_noMeas : (drainEnd s).noMeas = s.noMeas := rfl
@[simp] theorem drainEnd_reportChkInvalid : (drainEnd s).reportChkInvalid = s.reportChkInvalid := rfl
@[simp] theorem drainEnd_illegal : (drainEnd s).illegal = s.illegal := rfl
@[simp] theorem drainEnd_overrun : (drainEnd s).overrun = s.overrun := rfl
@[simp] theorem drainEnd_modeCur : (drainEnd s).modeCur = s.modeCur := rfl
@[simp] theorem drainEnd_outcome : (drainEnd s).outcome = s.outcome := rfl
@[simp] theorem drainEnd_stateCode : (drainEnd s).stateCode = s.stateCode := rfl
@[simp] theorem drainEnd_pm1Cnt : (drainEnd s).pm1Cnt = s.pm1Cnt := rfl
@[simp] theorem drainEnd_pm1DenRaw : (drainEnd s).pm1DenRaw = s.pm1DenRaw := rfl
@[simp] theorem drainEnd_pm25Cnt : (drainEnd s).pm25Cnt = s.pm25Cnt := rfl
@[simp] theorem drainEnd_pm25DenRaw : (drainEnd s).pm25DenRaw = s.pm25DenRaw := rfl
@[simp] theorem drainEnd_pm10Cnt : (drainEnd s).pm10Cnt = s.pm10Cnt := rfl
@[simp] theorem drainEnd_pm10DenRaw : (drainEnd s).pm10DenRaw = s.pm10DenRaw := rfl
@[simp] theorem drainEnd_tRaw : (drainEnd s).tRaw = s.tRaw := rfl
@[simp] theorem drainEnd_hRaw : (drainEnd s).hRaw = s.hRaw := rfl
@[simp] theorem drainEnd_resp : (drainEnd s).resp = s.resp := rfl
@[simp] theorem drainEnd_respLen : (drainEnd s).respLen = s.respLen := rfl
@[simp] theorem drainEnd_fsm : (drainEnd s).fsm = .eval := rfl
@[simp] theorem drainEnd_phase : (drainEnd s).phase = s.phase := rfl
@[simp] theorem drainEnd_opL : (drainEnd s).opL = s.opL := rfl
@[simp] theorem drainEnd_modeL : (drainEnd s).modeL = s.modeL := rfl
@[simp] theorem drainEnd_addrL : (drainEnd s).addrL = s.addrL := rfl
@[simp] theorem drainEnd_frame : (drainEnd s).frame = s.frame := rfl
@[simp] theorem drainEnd_txi : (drainEnd s).txi = s.txi := rfl
@[simp] theorem drainEnd_waitSel : (drainEnd s).waitSel = s.waitSel := rfl
@[simp] theorem drainEnd_drainEn : (drainEnd s).drainEn = s.drainEn := rfl
@[simp] theorem drainEnd_sum : (drainEnd s).sum = s.sum := rfl
@[simp] theorem drainEnd_rxBuf : (drainEnd s).rxBuf = s.rxBuf := rfl
@[simp] theorem drainEnd_devAddr : (drainEnd s).devAddr = s.devAddr := rfl
@[simp] theorem drainEnd_txReady : (drainEnd s).txReady = s.txReady := rfl
@[simp] theorem drainEnd_env : (drainEnd s).env = s.env := rfl
@[simp] theorem drainEnd_draws : (drainEnd s).draws = s.draws := rfl
@[simp] theorem drainEnd_txHist : (drainEnd s).txHist = s.txHist := rfl
@[simp] theorem drainEnd_irqCount : (drainEnd s).irqCount = s.irqCount := rfl

@[simp] theorem decodeState_busy (b : Byte) : (decodeState b s).busy = s.busy := rfl
@[simp] theorem decodeState_done (b : Byte) : (decodeState b s).done = s.done := rfl
@[simp] theorem decodeState_chkErr (b : Byte) : (decodeState b s).chkErr = s.chkErr := rfl
@[simp] theorem decodeState_noMeas (b : Byte) : (decodeState b s).noMeas = s.noMeas := rfl
@[simp] theorem decodeState_reportChkInvalid (b : Byte) : (decodeState b s).reportChkInvalid = s.chkErr := rfl
@[simp] theorem decodeState_illegal (b : Byte) : (decodeState b s).illegal = s.illegal := rfl
@[simp] theorem decodeState_overrun (b : Byte) : (decodeState b s).overrun = s.overrun := rfl
@[simp] theorem decodeState_modeCur (b : Byte) : (decodeState b s).modeCur = s.modeCur := rfl
@[simp] theorem decodeState_outcome (b : Byte) : (decodeState b s).outcome = s.outcome := rfl
@[simp] theorem decodeState_stateCode (b : Byte) : (decodeState b s).stateCode = decodedState s.chkErr b := rfl
@[simp] theorem decodeState_pm1Cnt (b : Byte) : (decodeState b s).pm1Cnt = s.pm1Cnt := rfl
@[simp] theorem decodeState_pm1DenRaw (b : Byte) : (decodeState b s).pm1DenRaw = s.pm1DenRaw := rfl
@[simp] theorem decodeState_pm25Cnt (b : Byte) : (decodeState b s).pm25Cnt = s.pm25Cnt := rfl
@[simp] theorem decodeState_pm25DenRaw (b : Byte) : (decodeState b s).pm25DenRaw = s.pm25DenRaw := rfl
@[simp] theorem decodeState_pm10Cnt (b : Byte) : (decodeState b s).pm10Cnt = s.pm10Cnt := rfl
@[simp] theorem decodeState_pm10DenRaw (b : Byte) : (decodeState b s).pm10DenRaw = s.pm10DenRaw := rfl
@[simp] theorem decodeState_tRaw (b : Byte) : (decodeState b s).tRaw = s.tRaw := rfl
@[simp] theorem decodeState_hRaw (b : Byte) : (decodeState b s).hRaw = s.hRaw := rfl
@[simp] theorem decodeState_resp (b : Byte) : (decodeState b s).resp = s.resp := rfl
@[simp] theorem decodeState_respLen (b : Byte) : (decodeState b s).respLen = s.respLen := rfl
@[simp] theorem decodeState_fsm (b : Byte) : (decodeState b s).fsm = s.fsm := rfl
@[simp] theorem decodeState_phase (b : Byte) : (decodeState b s).phase = s.phase := rfl
@[simp] theorem decodeState_opL (b : Byte) : (decodeState b s).opL = s.opL := rfl
@[simp] theorem decodeState_modeL (b : Byte) : (decodeState b s).modeL = s.modeL := rfl
@[simp] theorem decodeState_addrL (b : Byte) : (decodeState b s).addrL = s.addrL := rfl
@[simp] theorem decodeState_frame (b : Byte) : (decodeState b s).frame = s.frame := rfl
@[simp] theorem decodeState_txi (b : Byte) : (decodeState b s).txi = s.txi := rfl
@[simp] theorem decodeState_waitSel (b : Byte) : (decodeState b s).waitSel = s.waitSel := rfl
@[simp] theorem decodeState_drainEn (b : Byte) : (decodeState b s).drainEn = s.drainEn := rfl
@[simp] theorem decodeState_sum (b : Byte) : (decodeState b s).sum = s.sum := rfl
@[simp] theorem decodeState_rxBuf (b : Byte) : (decodeState b s).rxBuf = s.rxBuf := rfl
@[simp] theorem decodeState_devAddr (b : Byte) : (decodeState b s).devAddr = s.devAddr := rfl
@[simp] theorem decodeState_txReady (b : Byte) : (decodeState b s).txReady = s.txReady := rfl
@[simp] theorem decodeState_env (b : Byte) : (decodeState b s).env = s.env := rfl
@[simp] theorem decodeState_draws (b : Byte) : (decodeState b s).draws = s.draws := rfl
@[simp] theorem decodeState_txHist (b : Byte) : (decodeState b s).txHist = s.txHist := rfl
@[simp] theorem decodeState_irqCount (b : Byte) : (decodeState b s).irqCount = s.irqCount := rfl

@[simp] theorem decodeResp_busy : (decodeResp s).busy = s.busy := rfl
@[simp] theorem decodeResp_done : (decodeResp s).done = s.done := rfl
@[simp] theorem decodeResp_chkErr : (decodeResp s).chkErr = s.chkErr := rfl
@[simp] theorem decodeResp_noMeas : (decodeResp s).noMeas = s.noMeas := rfl
@[simp] theorem decodeResp_reportChkInvalid : (decodeResp s).reportChkInvalid = s.chkErr := rfl
@[simp] theorem decodeResp_illegal : (decodeResp s).illegal = s.illegal := rfl
@[simp] theorem decodeResp_overrun : (decodeResp s).overrun = s.overrun := rfl
@[simp] theorem decodeResp_modeCur : (decodeResp s).modeCur = s.modeCur := rfl
@[simp] theorem decodeResp_outcome : (decodeResp s).outcome = s.outcome := rfl
@[simp] theorem decodeResp_stateCode : (decodeResp s).stateCode = decodedState s.chkErr (respState s) := rfl
@[simp] theorem decodeResp_pm1Cnt : (decodeResp s).pm1Cnt = s.pm1Cnt := rfl
@[simp] theorem decodeResp_pm1DenRaw : (decodeResp s).pm1DenRaw = s.pm1DenRaw := rfl
@[simp] theorem decodeResp_pm25Cnt : (decodeResp s).pm25Cnt = s.pm25Cnt := rfl
@[simp] theorem decodeResp_pm25DenRaw : (decodeResp s).pm25DenRaw = s.pm25DenRaw := rfl
@[simp] theorem decodeResp_pm10Cnt : (decodeResp s).pm10Cnt = s.pm10Cnt := rfl
@[simp] theorem decodeResp_pm10DenRaw : (decodeResp s).pm10DenRaw = s.pm10DenRaw := rfl
@[simp] theorem decodeResp_tRaw : (decodeResp s).tRaw = s.tRaw := rfl
@[simp] theorem decodeResp_hRaw : (decodeResp s).hRaw = s.hRaw := rfl
@[simp] theorem decodeResp_resp : (decodeResp s).resp = s.resp := rfl
@[simp] theorem decodeResp_respLen : (decodeResp s).respLen = s.respLen := rfl
@[simp] theorem decodeResp_fsm : (decodeResp s).fsm = s.fsm := rfl
@[simp] theorem decodeResp_phase : (decodeResp s).phase = s.phase := rfl
@[simp] theorem decodeResp_opL : (decodeResp s).opL = s.opL := rfl
@[simp] theorem decodeResp_modeL : (decodeResp s).modeL = s.modeL := rfl
@[simp] theorem decodeResp_addrL : (decodeResp s).addrL = s.addrL := rfl
@[simp] theorem decodeResp_frame : (decodeResp s).frame = s.frame := rfl
@[simp] theorem decodeResp_txi : (decodeResp s).txi = s.txi := rfl
@[simp] theorem decodeResp_waitSel : (decodeResp s).waitSel = s.waitSel := rfl
@[simp] theorem decodeResp_drainEn : (decodeResp s).drainEn = s.drainEn := rfl
@[simp] theorem decodeResp_sum : (decodeResp s).sum = s.sum := rfl
@[simp] theorem decodeResp_rxBuf : (decodeResp s).rxBuf = s.rxBuf := rfl
@[simp] theorem decodeResp_devAddr : (decodeResp s).devAddr = s.devAddr := rfl
@[simp] theorem decodeResp_txReady : (decodeResp s).txReady = s.txReady := rfl
@[simp] theorem decodeResp_env : (decodeResp s).env = s.env := rfl
@[simp] theorem decodeResp_draws : (decodeResp s).draws = s.draws := rfl
@[simp] theorem decodeResp_txHist : (decodeResp s).txHist = s.txHist := rfl
@[simp] theorem decodeResp_irqCount : (decodeResp s).irqCount = s.irqCount := rfl

@[simp] theorem pmLatch_busy (m : Mode) : (pmLatch m s).busy = s.busy := rfl
@[simp] theorem pmLatch_done (m : Mode) : (pmLatch m s).done = s.done := rfl
@[simp] theorem pmLatch_chkErr (m : Mode) : (pmLatch m s).chkErr = s.chkErr := rfl
@[simp] theorem pmLatch_noMeas (m : Mode) : (pmLatch m s).noMeas = false := rfl
@[simp] theorem pmLatch_reportChkInvalid (m : Mode) : (pmLatch m s).reportChkInvalid = s.reportChkInvalid := rfl
@[simp] theorem pmLatch_illegal (m : Mode) : (pmLatch m s).illegal = s.illegal := rfl
@[simp] theorem pmLatch_overrun (m : Mode) : (pmLatch m s).overrun = s.overrun := rfl
@[simp] theorem pmLatch_modeCur (m : Mode) : (pmLatch m s).modeCur = m := rfl
@[simp] theorem pmLatch_outcome (m : Mode) : (pmLatch m s).outcome = s.outcome := rfl
@[simp] theorem pmLatch_stateCode (m : Mode) : (pmLatch m s).stateCode = s.stateCode := rfl
@[simp] theorem pmLatch_pm1Cnt (m : Mode) : (pmLatch m s).pm1Cnt = windowCnt s pm1Window := rfl
@[simp] theorem pmLatch_pm1DenRaw (m : Mode) : (pmLatch m s).pm1DenRaw = windowDenRaw s pm1Window := rfl
@[simp] theorem pmLatch_pm25Cnt (m : Mode) : (pmLatch m s).pm25Cnt = windowCnt s pm25Window := rfl
@[simp] theorem pmLatch_pm25DenRaw (m : Mode) : (pmLatch m s).pm25DenRaw = windowDenRaw s pm25Window := rfl
@[simp] theorem pmLatch_pm10Cnt (m : Mode) : (pmLatch m s).pm10Cnt = windowCnt s pm10Window := rfl
@[simp] theorem pmLatch_pm10DenRaw (m : Mode) : (pmLatch m s).pm10DenRaw = windowDenRaw s pm10Window := rfl
@[simp] theorem pmLatch_tRaw (m : Mode) : (pmLatch m s).tRaw = s.tRaw := rfl
@[simp] theorem pmLatch_hRaw (m : Mode) : (pmLatch m s).hRaw = s.hRaw := rfl
@[simp] theorem pmLatch_resp (m : Mode) : (pmLatch m s).resp = s.resp := rfl
@[simp] theorem pmLatch_respLen (m : Mode) : (pmLatch m s).respLen = s.respLen := rfl
@[simp] theorem pmLatch_fsm (m : Mode) : (pmLatch m s).fsm = s.fsm := rfl
@[simp] theorem pmLatch_phase (m : Mode) : (pmLatch m s).phase = s.phase := rfl
@[simp] theorem pmLatch_opL (m : Mode) : (pmLatch m s).opL = s.opL := rfl
@[simp] theorem pmLatch_modeL (m : Mode) : (pmLatch m s).modeL = s.modeL := rfl
@[simp] theorem pmLatch_addrL (m : Mode) : (pmLatch m s).addrL = s.addrL := rfl
@[simp] theorem pmLatch_frame (m : Mode) : (pmLatch m s).frame = s.frame := rfl
@[simp] theorem pmLatch_txi (m : Mode) : (pmLatch m s).txi = s.txi := rfl
@[simp] theorem pmLatch_waitSel (m : Mode) : (pmLatch m s).waitSel = s.waitSel := rfl
@[simp] theorem pmLatch_drainEn (m : Mode) : (pmLatch m s).drainEn = s.drainEn := rfl
@[simp] theorem pmLatch_sum (m : Mode) : (pmLatch m s).sum = s.sum := rfl
@[simp] theorem pmLatch_rxBuf (m : Mode) : (pmLatch m s).rxBuf = s.rxBuf := rfl
@[simp] theorem pmLatch_devAddr (m : Mode) : (pmLatch m s).devAddr = s.devAddr := rfl
@[simp] theorem pmLatch_txReady (m : Mode) : (pmLatch m s).txReady = s.txReady := rfl
@[simp] theorem pmLatch_env (m : Mode) : (pmLatch m s).env = s.env := rfl
@[simp] theorem pmLatch_draws (m : Mode) : (pmLatch m s).draws = s.draws := rfl
@[simp] theorem pmLatch_txHist (m : Mode) : (pmLatch m s).txHist = s.txHist := rfl
@[simp] theorem pmLatch_irqCount (m : Mode) : (pmLatch m s).irqCount = s.irqCount := rfl

@[simp] theorem pmBusy_busy : (pmBusy s).busy = s.busy := rfl
@[simp] theorem pmBusy_done : (pmBusy s).done = s.done := rfl
@[simp] theorem pmBusy_chkErr : (pmBusy s).chkErr = s.chkErr := rfl
@[simp] theorem pmBusy_noMeas : (pmBusy s).noMeas = true := rfl
@[simp] theorem pmBusy_reportChkInvalid : (pmBusy s).reportChkInvalid = s.reportChkInvalid := rfl
@[simp] theorem pmBusy_illegal : (pmBusy s).illegal = s.illegal := rfl
@[simp] theorem pmBusy_overrun : (pmBusy s).overrun = s.overrun := rfl
@[simp] theorem pmBusy_modeCur : (pmBusy s).modeCur = s.modeCur := rfl
@[simp] theorem pmBusy_outcome : (pmBusy s).outcome = s.outcome := rfl
@[simp] theorem pmBusy_stateCode : (pmBusy s).stateCode = s.stateCode := rfl
@[simp] theorem pmBusy_pm1Cnt : (pmBusy s).pm1Cnt = s.pm1Cnt := rfl
@[simp] theorem pmBusy_pm1DenRaw : (pmBusy s).pm1DenRaw = s.pm1DenRaw := rfl
@[simp] theorem pmBusy_pm25Cnt : (pmBusy s).pm25Cnt = s.pm25Cnt := rfl
@[simp] theorem pmBusy_pm25DenRaw : (pmBusy s).pm25DenRaw = s.pm25DenRaw := rfl
@[simp] theorem pmBusy_pm10Cnt : (pmBusy s).pm10Cnt = s.pm10Cnt := rfl
@[simp] theorem pmBusy_pm10DenRaw : (pmBusy s).pm10DenRaw = s.pm10DenRaw := rfl
@[simp] theorem pmBusy_tRaw : (pmBusy s).tRaw = s.tRaw := rfl
@[simp] theorem pmBusy_hRaw : (pmBusy s).hRaw = s.hRaw := rfl
@[simp] theorem pmBusy_resp : (pmBusy s).resp = s.resp := rfl
@[simp] theorem pmBusy_respLen : (pmBusy s).respLen = s.respLen := rfl
@[simp] theorem pmBusy_fsm : (pmBusy s).fsm = s.fsm := rfl
@[simp] theorem pmBusy_phase : (pmBusy s).phase = s.phase := rfl
@[simp] theorem pmBusy_opL : (pmBusy s).opL = s.opL := rfl
@[simp] theorem pmBusy_modeL : (pmBusy s).modeL = s.modeL := rfl
@[simp] theorem pmBusy_addrL : (pmBusy s).addrL = s.addrL := rfl
@[simp] theorem pmBusy_frame : (pmBusy s).frame = s.frame := rfl
@[simp] theorem pmBusy_txi : (pmBusy s).txi = s.txi := rfl
@[simp] theorem pmBusy_waitSel : (pmBusy s).waitSel = s.waitSel := rfl
@[simp] theorem pmBusy_drainEn : (pmBusy s).drainEn = s.drainEn := rfl
@[simp] theorem pmBusy_sum : (pmBusy s).sum = s.sum := rfl
@[simp] theorem pmBusy_rxBuf : (pmBusy s).rxBuf = s.rxBuf := rfl
@[simp] theorem pmBusy_devAddr : (pmBusy s).devAddr = s.devAddr := rfl
@[simp] theorem pmBusy_txReady : (pmBusy s).txReady = s.txReady := rfl
@[simp] theorem pmBusy_env : (pmBusy s).env = s.env := rfl
@[simp] theorem pmBusy_draws : (pmBusy s).draws = s.draws := rfl
@[simp] theorem pmBusy_txHist : (pmBusy s).txHist = s.txHist := rfl
@[simp] theorem pmBusy_irqCount : (pmBusy s).irqCount = s.irqCount := rfl

@[simp] theorem thLatch_busy : (thLatch s).busy = s.busy := rfl
@[simp] theorem thLatch_done : (thLatch s).done = s.done := rfl
@[simp] theorem thLatch_chkErr : (thLatch s).chkErr = s.chkErr := rfl
@[simp] theorem thLatch_noMeas : (thLatch s).noMeas = false := rfl
@[simp] theorem thLatch_reportChkInvalid : (thLatch s).reportChkInvalid = s.reportChkInvalid := rfl
@[simp] theorem thLatch_illegal : (thLatch s).illegal = s.illegal := rfl
@[simp] theorem thLatch_overrun : (thLatch s).overrun = s.overrun := rfl
@[simp] theorem thLatch_modeCur : (thLatch s).modeCur = s.modeCur := rfl
@[simp] theorem thLatch_outcome : (thLatch s).outcome = s.outcome := rfl
@[simp] theorem thLatch_stateCode : (thLatch s).stateCode = s.stateCode := rfl
@[simp] theorem thLatch_pm1Cnt : (thLatch s).pm1Cnt = s.pm1Cnt := rfl
@[simp] theorem thLatch_pm1DenRaw : (thLatch s).pm1DenRaw = s.pm1DenRaw := rfl
@[simp] theorem thLatch_pm25Cnt : (thLatch s).pm25Cnt = s.pm25Cnt := rfl
@[simp] theorem thLatch_pm25DenRaw : (thLatch s).pm25DenRaw = s.pm25DenRaw := rfl
@[simp] theorem thLatch_pm10Cnt : (thLatch s).pm10Cnt = s.pm10Cnt := rfl
@[simp] theorem thLatch_pm10DenRaw : (thLatch s).pm10DenRaw = s.pm10DenRaw := rfl
@[simp] theorem thLatch_tRaw : (thLatch s).tRaw = respWord s tOffset := rfl
@[simp] theorem thLatch_hRaw : (thLatch s).hRaw = respWord s hOffset := rfl
@[simp] theorem thLatch_resp : (thLatch s).resp = s.resp := rfl
@[simp] theorem thLatch_respLen : (thLatch s).respLen = s.respLen := rfl
@[simp] theorem thLatch_fsm : (thLatch s).fsm = s.fsm := rfl
@[simp] theorem thLatch_phase : (thLatch s).phase = s.phase := rfl
@[simp] theorem thLatch_opL : (thLatch s).opL = s.opL := rfl
@[simp] theorem thLatch_modeL : (thLatch s).modeL = s.modeL := rfl
@[simp] theorem thLatch_addrL : (thLatch s).addrL = s.addrL := rfl
@[simp] theorem thLatch_frame : (thLatch s).frame = s.frame := rfl
@[simp] theorem thLatch_txi : (thLatch s).txi = s.txi := rfl
@[simp] theorem thLatch_waitSel : (thLatch s).waitSel = s.waitSel := rfl
@[simp] theorem thLatch_drainEn : (thLatch s).drainEn = s.drainEn := rfl
@[simp] theorem thLatch_sum : (thLatch s).sum = s.sum := rfl
@[simp] theorem thLatch_rxBuf : (thLatch s).rxBuf = s.rxBuf := rfl
@[simp] theorem thLatch_devAddr : (thLatch s).devAddr = s.devAddr := rfl
@[simp] theorem thLatch_txReady : (thLatch s).txReady = s.txReady := rfl
@[simp] theorem thLatch_env : (thLatch s).env = s.env := rfl
@[simp] theorem thLatch_draws : (thLatch s).draws = s.draws := rfl
@[simp] theorem thLatch_txHist : (thLatch s).txHist = s.txHist := rfl
@[simp] theorem thLatch_irqCount : (thLatch s).irqCount = s.irqCount := rfl

@[simp] theorem thBusy_busy : (thBusy s).busy = s.busy := rfl
@[simp] theorem thBusy_done : (thBusy s).done = s.done := rfl
@[simp] theorem thBusy_chkErr : (thBusy s).chkErr = s.chkErr := rfl
@[simp] theorem thBusy_noMeas : (thBusy s).noMeas = true := rfl
@[simp] theorem thBusy_reportChkInvalid : (thBusy s).reportChkInvalid = s.reportChkInvalid := rfl
@[simp] theorem thBusy_illegal : (thBusy s).illegal = s.illegal := rfl
@[simp] theorem thBusy_overrun : (thBusy s).overrun = s.overrun := rfl
@[simp] theorem thBusy_modeCur : (thBusy s).modeCur = s.modeCur := rfl
@[simp] theorem thBusy_outcome : (thBusy s).outcome = s.outcome := rfl
@[simp] theorem thBusy_stateCode : (thBusy s).stateCode = s.stateCode := rfl
@[simp] theorem thBusy_pm1Cnt : (thBusy s).pm1Cnt = s.pm1Cnt := rfl
@[simp] theorem thBusy_pm1DenRaw : (thBusy s).pm1DenRaw = s.pm1DenRaw := rfl
@[simp] theorem thBusy_pm25Cnt : (thBusy s).pm25Cnt = s.pm25Cnt := rfl
@[simp] theorem thBusy_pm25DenRaw : (thBusy s).pm25DenRaw = s.pm25DenRaw := rfl
@[simp] theorem thBusy_pm10Cnt : (thBusy s).pm10Cnt = s.pm10Cnt := rfl
@[simp] theorem thBusy_pm10DenRaw : (thBusy s).pm10DenRaw = s.pm10DenRaw := rfl
@[simp] theorem thBusy_tRaw : (thBusy s).tRaw = s.tRaw := rfl
@[simp] theorem thBusy_hRaw : (thBusy s).hRaw = s.hRaw := rfl
@[simp] theorem thBusy_resp : (thBusy s).resp = s.resp := rfl
@[simp] theorem thBusy_respLen : (thBusy s).respLen = s.respLen := rfl
@[simp] theorem thBusy_fsm : (thBusy s).fsm = s.fsm := rfl
@[simp] theorem thBusy_phase : (thBusy s).phase = s.phase := rfl
@[simp] theorem thBusy_opL : (thBusy s).opL = s.opL := rfl
@[simp] theorem thBusy_modeL : (thBusy s).modeL = s.modeL := rfl
@[simp] theorem thBusy_addrL : (thBusy s).addrL = s.addrL := rfl
@[simp] theorem thBusy_frame : (thBusy s).frame = s.frame := rfl
@[simp] theorem thBusy_txi : (thBusy s).txi = s.txi := rfl
@[simp] theorem thBusy_waitSel : (thBusy s).waitSel = s.waitSel := rfl
@[simp] theorem thBusy_drainEn : (thBusy s).drainEn = s.drainEn := rfl
@[simp] theorem thBusy_sum : (thBusy s).sum = s.sum := rfl
@[simp] theorem thBusy_rxBuf : (thBusy s).rxBuf = s.rxBuf := rfl
@[simp] theorem thBusy_devAddr : (thBusy s).devAddr = s.devAddr := rfl
@[simp] theorem thBusy_txReady : (thBusy s).txReady = s.txReady := rfl
@[simp] theorem thBusy_env : (thBusy s).env = s.env := rfl
@[simp] theorem thBusy_draws : (thBusy s).draws = s.draws := rfl
@[simp] theorem thBusy_txHist : (thBusy s).txHist = s.txHist := rfl
@[simp] theorem thBusy_irqCount : (thBusy s).irqCount = s.irqCount := rfl

@[simp] theorem sampled_busy : (sampled s).busy = s.busy := by unfold sampled advanceEnv; cases s.env <;> rfl
@[simp] theorem sampled_done : (sampled s).done = s.done := by unfold sampled advanceEnv; cases s.env <;> rfl
@[simp] theorem sampled_chkErr : (sampled s).chkErr = s.chkErr := by unfold sampled advanceEnv; cases s.env <;> rfl
@[simp] theorem sampled_noMeas : (sampled s).noMeas = s.noMeas := by unfold sampled advanceEnv; cases s.env <;> rfl
@[simp] theorem sampled_reportChkInvalid : (sampled s).reportChkInvalid = s.reportChkInvalid := by unfold sampled advanceEnv; cases s.env <;> rfl
@[simp] theorem sampled_illegal : (sampled s).illegal = s.illegal := by unfold sampled advanceEnv; cases s.env <;> rfl
@[simp] theorem sampled_overrun : (sampled s).overrun = s.overrun := by unfold sampled advanceEnv; cases s.env <;> rfl
@[simp] theorem sampled_modeCur : (sampled s).modeCur = s.modeCur := by unfold sampled advanceEnv; cases s.env <;> rfl
@[simp] theorem sampled_outcome : (sampled s).outcome = s.outcome := by unfold sampled advanceEnv; cases s.env <;> rfl
@[simp] theorem sampled_stateCode : (sampled s).stateCode = s.stateCode := by unfold sampled advanceEnv; cases s.env <;> rfl
@[simp] theorem sampled_pm1Cnt : (sampled s).pm1Cnt = s.pm1Cnt := by unfold sampled advanceEnv; cases s.env <;> rfl
@[simp] theorem sampled_pm1DenRaw : (sampled s).pm1DenRaw = s.pm1DenRaw := by unfold sampled advanceEnv; cases s.env <;> rfl
@[simp] theorem sampled_pm25Cnt : (sampled s).pm25Cnt = s.pm25Cnt := by unfold sampled advanceEnv; cases s.env <;> rfl
@[simp] theorem sampled_pm25DenRaw : (sampled s).pm25DenRaw = s.pm25DenRaw := by unfold sampled advanceEnv; cases s.env <;> rfl
@[simp] theorem sampled_pm10Cnt : (sampled s).pm10Cnt = s.pm10Cnt := by unfold sampled advanceEnv; cases s.env <;> rfl
@[simp] theorem sampled_pm10DenRaw : (sampled s).pm10DenRaw = s.pm10DenRaw := by unfold sampled advanceEnv; cases s.env <;> rfl
@[simp] theorem sampled_tRaw : (sampled s).tRaw = s.tRaw := by unfold sampled advanceEnv; cases s.env <;> rfl
@[simp] theorem sampled_hRaw : (sampled s).hRaw = s.hRaw := by unfold sampled advanceEnv; cases s.env <;> rfl
@[simp] theorem sampled_resp : (sampled s).resp = s.resp := by unfold sampled advanceEnv; cases s.env <;> rfl
@[simp] theorem sampled_respLen : (sampled s).respLen = s.respLen := by unfold sampled advanceEnv; cases s.env <;> rfl
@[simp] theorem sampled_fsm : (sampled s).fsm = s.fsm := by unfold sampled advanceEnv; cases s.env <;> rfl
@[simp] theorem sampled_phase : (sampled s).phase = s.phase := by unfold sampled advanceEnv; cases s.env <;> rfl
@[simp] theorem sampled_opL : (sampled s).opL = s.opL := by unfold sampled advanceEnv; cases s.env <;> rfl
@[simp] theorem sampled_modeL : (sampled s).modeL = s.modeL := by unfold sampled advanceEnv; cases s.env <;> rfl
@[simp] theorem sampled_addrL : (sampled s).addrL = s.addrL := by unfold sampled advanceEnv; cases s.env <;> rfl
@[simp] theorem sampled_frame : (sampled s).frame = s.frame := by unfold sampled advanceEnv; cases s.env <;> rfl
@[simp] theorem sampled_txi : (sampled s).txi = s.txi := by unfold sampled advanceEnv; cases s.env <;> rfl
@[simp] theorem sampled_waitSel : (sampled s).waitSel = s.waitSel := by unfold sampled advanceEnv; cases s.env <;> rfl
@[simp] theorem sampled_drainEn : (sampled s).drainEn = s.drainEn := by unfold sampled advanceEnv; cases s.env <;> rfl
@[simp] theorem sampled_sum : (sampled s).sum = s.sum := by unfold sampled advanceEnv; cases s.env <;> rfl
@[simp] theorem sampled_txHist : (sampled s).txHist = s.txHist := by unfold sampled advanceEnv; cases s.env <;> rfl
@[simp] theorem sampled_irqCount : (sampled s).irqCount = s.irqCount := by unfold sampled advanceEnv; cases s.env <;> rfl

@[simp] theorem sampled_env : (sampled s).env = s.env.tail := by unfold sampled advanceEnv; cases s.env <;> rfl
@[simp] theorem sampled_devAddr : (sampled s).devAddr = (nextSample s).devAddr := rfl
@[simp] theorem sampled_txReady : (sampled s).txReady = (nextSample s).txReady := rfl
@[simp] theorem sampled_rxBuf : (sampled s).rxBuf = s.rxBuf ++ (nextSample s).rxIn := by
  unfold sampled advanceEnv; cases s.env <;> rfl

end Sys2Proof.Laws
end

