-- ==== Sys2Proof/Laws/Ops.lean ====
section
/-! SUPPORT. What each shared operation, each micro-step and a whole step can answer, said once. -/

namespace Sys2Proof.Laws

open Sys2Proof.Machine Sys2Proof.Safety

/-! Exchanges. -/

@[simp] theorem opc_refA (op : HostOp) (m : Mode) : opc op .refA m = some opcState := by cases op <;> rfl

@[simp] theorem opc_refB (op : HostOp) (m : Mode) : opc op .refB m = some opcState := by cases op <;> rfl

@[simp] theorem startExchange_refA (s : State) :
    startExchange .refA s = .next (loadExchange .refA opcState s) := by simp [startExchange]

@[simp] theorem startExchange_refB (s : State) :
    startExchange .refB s = .next (loadExchange .refB opcState s) := by simp [startExchange]

/-- The MAIN exchange of an operation that has one. -/
theorem startExchange_main {s : State} {o : Byte} (h : opc s.opL .main s.modeL = some o) :
    startExchange .main s = .next (loadExchange .main o s) := by simp [startExchange, h]

/-- Only GETSTATE has no MAIN opcode. -/
theorem opc_main_of_ne {op : HostOp} (m : Mode) (h : op ≠ .getState) : ∃ o, opc op .main m = some o := by
  cases op <;> simp_all [opc]

theorem startExchange_cases {ph : Phase} {s t : State} (h : startExchange ph s = .next t) :
    ∃ o, opc s.opL ph s.modeL = some o ∧ t = loadExchange ph o s := by
  unfold startExchange at h
  split at h
  · next o ho => exact ⟨o, ho, by cases h; rfl⟩
  · cases h

/-! Host words. -/

/-- A host word is presented. -/
theorem exec_hostWord {i : Instr} {op : HostOp} {m : Mode} (h : hostOperation i = some (op, m)) (s : State) :
    exec i s = acceptWord op m s := by
  cases i <;> simp only [hostOperation, Option.some.injEq, Prod.mk.injEq, reduceCtorEq] at h <;>
    obtain ⟨rfl, rfl⟩ := h <;> rfl

theorem acceptWord_busy {op : HostOp} {m : Mode} {s : State} (h : s.busy = true) :
    acceptWord op m s = .next (raiseOverrun s) := by simp [acceptWord, h]

theorem acceptWord_free {op : HostOp} {m : Mode} {s : State} (h : s.busy = false) :
    acceptWord op m s = .next (loadExchange .refA opcState (latchWord op m s)) := by simp [acceptWord, h]

/-- A decoded host word is one of the eight; only PM has a mode. -/
theorem hostOperation_of_decodeHost {w : Byte} {i : Instr} (h : decodeHost w = .ok i) :
    ∃ op m, hostOperation i = some (op, m) ∧ (op ≠ .pm → m = .off) := by
  unfold decodeHost plainHostWord at h
  repeat' split at h
  all_goals first
    | cases h; done
    | (cases h; exact ⟨_, _, rfl, fun _ => rfl⟩)
    | (cases h
       generalize Mode.ofCode (hostMode w) = m
       cases m <;> exact ⟨_, _, rfl, fun hne => absurd rfl hne⟩)

/-! Wire commands. -/

/-- A wire command takes the next micro-step of its frame's exchange. -/
theorem exec_wire {i : Instr} {f : Frame} (h : i.wireFrame = some f) (s : State) : exec i s = exchangeStep f s := by
  cases i <;> simp only [Instr.wireFrame, Option.some.injEq, reduceCtorEq] at h <;> subst h <;> rfl

/-- The frame in progress takes the next micro-step of its exchange, whatever it decodes to. -/
theorem runSource_exchange (f : Frame) (s : State) : runSource (.exchange f) s = exchangeStep f s := by
  unfold runSource Source.instr
  simp only [Source.bytes, Option.bind_some, decode_bytes]
  cases h : decodeWire f with
  | error e => rfl
  | ok i => exact exec_wire (wireFrame_of_decodeWire h) s

theorem runSource_nothing (s : State) : runSource .nothing s = .next s := rfl

/-- A presented word is dropped while BUSY. -/
theorem runSource_port_busy {w : Byte} {s : State} (h : s.busy = true) :
    runSource (.port w) s = .next (raiseOverrun s) := by
  unfold runSource Source.instr
  simp only [Source.bytes, Option.bind_some, decode_single]
  cases hw : decodeHost w with
  | error e => simp [Except.toOption, withoutInstr, illegalWord, h]
  | ok i =>
    obtain ⟨op, m, ho, -⟩ := hostOperation_of_decodeHost hw
    simp [Except.toOption, exec_hostWord ho, acceptWord_busy h]

/-- A legal word is accepted while BUSY = 0. -/
theorem runSource_port_legal {w : Byte} {i : Instr} {op : HostOp} {m : Mode} {s : State} (h : s.busy = false)
    (hw : decodeHost w = .ok i) (ho : hostOperation i = some (op, m)) :
    runSource (.port w) s = .next (loadExchange .refA opcState (latchWord op m s)) := by
  unfold runSource Source.instr
  simp [Source.bytes, hw, Except.toOption, exec_hostWord ho, acceptWord_free h]

/-- An illegal word raises ILLEGAL while BUSY = 0. -/
theorem runSource_port_illegal {w : Byte} {e : DecodeError} {s : State} (h : s.busy = false)
    (hw : decodeHost w = .error e) : runSource (.port w) s = .next (raiseIllegal s) := by
  unfold runSource Source.instr
  simp [Source.bytes, hw, Except.toOption, withoutInstr, illegalWord, h]

/-! The micro-steps of an exchange. -/

theorem exchangeStep_idle {f : Frame} {s : State} (h : s.fsm = .idle) : exchangeStep f s = .next s := by
  simp [exchangeStep, h]

theorem exchangeStep_tx {f : Frame} {s : State} (h : s.fsm = .tx) (hr : s.txReady = true) :
    exchangeStep f s = .next (txByte (frameByte f s.txi) s) := by simp [exchangeStep, h, txStep, hr]

theorem exchangeStep_tx_stall {f : Frame} {s : State} (h : s.fsm = .tx) (hr : s.txReady = false) :
    exchangeStep f s = .next s := by simp [exchangeStep, h, txStep, hr]

theorem exchangeStep_gap_more {f : Frame} {s : State} (h : s.fsm = .gap) (hi : s.txi.val < 2) :
    exchangeStep f s = .next (nextByte s) := by simp [exchangeStep, h, gapStep, hi]

theorem exchangeStep_gap_last {f : Frame} {s : State} (h : s.fsm = .gap) (hi : ¬ s.txi.val < 2) :
    exchangeStep f s = .next (enter .settle s) := by simp [exchangeStep, h, gapStep, hi]

theorem exchangeStep_settle {f : Frame} {s : State} (h : s.fsm = .settle) (hd : s.drainEn = true) :
    exchangeStep f s = .next (drainStart s) := by simp [exchangeStep, h, settleStep, hd]

theorem exchangeStep_settle_toggle {f : Frame} {s : State} (h : s.fsm = .settle) (hd : s.drainEn = false) :
    exchangeStep f s = .next (enter .eval s) := by simp [exchangeStep, h, settleStep, hd]

theorem exchangeStep_drain_store {f : Frame} {s : State} {b : Byte} {rest : List Byte} (h : s.fsm = .drain)
    (hb : s.rxBuf = b :: rest) (hl : s.respLen.toNat < 16) :
    exchangeStep f s = .next (storeByte b (popRx rest s)) := by
  have : s.respLen < respCap := by simpa [respCap, BitVec.lt_def] using hl
  simp [exchangeStep, h, drainPoll, hb, drainStep, this]

theorem exchangeStep_drain_discard {f : Frame} {s : State} {b : Byte} {rest : List Byte} (h : s.fsm = .drain)
    (hb : s.rxBuf = b :: rest) (hl : 16 ≤ s.respLen.toNat) :
    exchangeStep f s = .next (popRx rest s) := by
  have : ¬ s.respLen < respCap := by simpa [respCap, BitVec.lt_def] using hl
  simp [exchangeStep, h, drainPoll, hb, drainStep, this]

theorem exchangeStep_drain_end {f : Frame} {s : State} (h : s.fsm = .drain) (hb : s.rxBuf = []) :
    exchangeStep f s = .next (drainEnd s) := by simp [exchangeStep, h, drainPoll, hb]

theorem exchangeStep_eval {f : Frame} {s : State} (h : s.fsm = .eval) : exchangeStep f s = evalArm s := by
  simp [exchangeStep, h]

/-- Everything a micro-step of an exchange outside EVAL can do. -/
theorem exchangeStep_cases {f : Frame} {s t : State} (h : exchangeStep f s = .next t) (he : s.fsm ≠ .eval) :
    (s.fsm = .idle ∧ t = s) ∨
    (s.fsm = .tx ∧ s.txReady = true ∧ t = txByte (frameByte f s.txi) s) ∨
    (s.fsm = .tx ∧ s.txReady = false ∧ t = s) ∨
    (s.fsm = .gap ∧ s.txi.val < 2 ∧ t = nextByte s) ∨
    (s.fsm = .gap ∧ ¬ s.txi.val < 2 ∧ t = enter .settle s) ∨
    (s.fsm = .settle ∧ s.drainEn = true ∧ t = drainStart s) ∨
    (s.fsm = .settle ∧ s.drainEn = false ∧ t = enter .eval s) ∨
    (s.fsm = .drain ∧ ∃ b rest, s.rxBuf = b :: rest ∧ s.respLen.toNat < 16 ∧
      t = storeByte b (popRx rest s)) ∨
    (s.fsm = .drain ∧ ∃ b rest, s.rxBuf = b :: rest ∧ 16 ≤ s.respLen.toNat ∧ t = popRx rest s) ∨
    (s.fsm = .drain ∧ s.rxBuf = [] ∧ t = drainEnd s) := by
  cases hf : s.fsm
  case idle => rw [exchangeStep_idle hf] at h; cases h; simp
  case tx =>
    by_cases hr : s.txReady = true
    · rw [exchangeStep_tx hf hr] at h; cases h; simp [hr]
    · rw [exchangeStep_tx_stall hf (by simpa using hr)] at h; cases h; simp [hr]
  case gap =>
    by_cases hi : s.txi.val < 2
    · rw [exchangeStep_gap_more hf hi] at h; cases h; simp [hi]
    · rw [exchangeStep_gap_last hf hi] at h; cases h; simp [hi]
  case settle =>
    by_cases hd : s.drainEn = true
    · rw [exchangeStep_settle hf hd] at h; cases h; simp [hd]
    · rw [exchangeStep_settle_toggle hf (by simpa using hd)] at h; cases h; simp [hd]
  case drain =>
    cases hb : s.rxBuf with
    | nil => rw [exchangeStep_drain_end hf hb] at h; cases h; simp
    | cons b rest =>
      by_cases hl : s.respLen.toNat < 16
      · rw [exchangeStep_drain_store hf hb hl] at h; cases h; simp [hl]
      · rw [exchangeStep_drain_discard hf hb (by omega)] at h; cases h; simp [hl, Nat.le_of_not_lt hl]
  case eval => exact absurd hf he

/-! The dispatch of EVAL (R150), row by row. -/

theorem evalArm_getState {s : State} (ho : s.opL = .getState) (hp : s.phase = .refA) : evalArm s = evalGetState s := by
  simp [evalArm, ho, hp]

theorem evalArm_sleepRefA {s : State} (ho : s.opL = .sleep) (hp : s.phase = .refA) : evalArm s = evalSleepRefA s := by
  simp [evalArm, ho, hp]

theorem evalArm_sleepMain {s : State} (ho : s.opL = .sleep) (hp : s.phase = .main) : evalArm s = evalSleepMain s := by
  simp [evalArm, ho, hp]

theorem evalArm_sleepRefB {s : State} (ho : s.opL = .sleep) (hp : s.phase = .refB) : evalArm s = evalSleepRefB s := by
  simp [evalArm, ho, hp]

theorem evalArm_wakeRefA {s : State} (ho : s.opL = .wake) (hp : s.phase = .refA) : evalArm s = evalWakeRefA s := by
  simp [evalArm, ho, hp]

theorem evalArm_wakeMain {s : State} (ho : s.opL = .wake) (hp : s.phase = .main) : evalArm s = evalWakeMain s := by
  simp [evalArm, ho, hp]

theorem evalArm_wakeRefB {s : State} (ho : s.opL = .wake) (hp : s.phase = .refB) : evalArm s = evalWakeRefB s := by
  simp [evalArm, ho, hp]

theorem evalArm_pmRefA {s : State} (ho : s.opL = .pm) (hp : s.phase = .refA) : evalArm s = evalPmRefA s := by
  simp [evalArm, ho, hp]

theorem evalArm_pmMain {s : State} (ho : s.opL = .pm) (hp : s.phase = .main) : evalArm s = evalPmMain s := by
  simp [evalArm, ho, hp]

theorem evalArm_pmRefB {s : State} (ho : s.opL = .pm) (hp : s.phase = .refB) : evalArm s = evalPmRefB s := by
  simp [evalArm, ho, hp]

theorem evalArm_thRefA {s : State} (ho : s.opL = .th) (hp : s.phase = .refA) : evalArm s = evalThRefA s := by
  simp [evalArm, ho, hp]

theorem evalArm_thMain {s : State} (ho : s.opL = .th) (hp : s.phase = .main) : evalArm s = evalThMain s := by
  simp [evalArm, ho, hp]

/-! The tests of the arms on a state value, as bits. -/

theorem flag_sleep (b : Byte) : flag .sleep b = b.getLsbD 0 := by revert b; decide

theorem gatePm_eq (b : Byte) : gatePm b = (b &&& 0x85 != 0) := by revert b; decide

theorem gateTh_eq (b : Byte) : gateTh b = (b &&& 0x14 != 0) := by revert b; decide

theorem isBusyCode_eq (b : Byte) : isBusyCode b = decide (b = 0x16) := by revert b; decide

/-- Everything an EVAL arm can do. -/
theorem evalArm_cases {s t : State} (h : evalArm s = .next t) :
    (∃ c, c ≠ .none ∧ (s.phase ≠ .main ∨ s.opL = .sleep ∧ s.chkErr = false) ∧ t = finish c (decodeResp s)) ∨
    (s.phase = .main ∧ (s.opL = .pm ∨ s.opL = .th) ∧ s.chkErr = true ∧ t = finish .chkAbort s) ∨
    (s.phase = .main ∧ s.opL = .pm ∧ s.chkErr = false ∧ isBusyCode (respState s) = false ∧
      t = finish .ok (pmLatch s.modeL (decodeResp s))) ∨
    (s.phase = .main ∧ s.opL = .th ∧ s.chkErr = false ∧ isBusyCode (respState s) = false ∧
      t = finish .ok (thLatch (decodeResp s))) ∨
    (s.phase = .main ∧ s.opL = .th ∧ s.chkErr = false ∧ isBusyCode (respState s) = true ∧
      t = finish .busyCode (thBusy (decodeResp s))) ∨
    (s.phase = .refA ∧ ∃ o, opc s.opL .main s.modeL = some o ∧ t = loadExchange .main o (decodeResp s)) ∨
    (s.phase = .main ∧ (s.opL = .sleep ∨ s.opL = .wake) ∧ t = loadExchange .refB opcState s) ∨
    (s.phase = .main ∧ s.opL = .pm ∧ s.chkErr = false ∧ isBusyCode (respState s) = true ∧
      t = loadExchange .refB opcState (pmBusy (decodeResp s))) := by
  have go : ∀ {u : State}, startExchange .main u = .next t → u = decodeResp s →
      ∃ o, opc s.opL .main s.modeL = some o ∧ t = loadExchange .main o (decodeResp s) := by
    rintro u hu rfl
    exact startExchange_cases hu
  unfold evalArm at h
  cases ho : s.opL <;> cases hp : s.phase <;> simp only [ho, hp, reduceCtorEq] at h
  · cases h; exact .inl ⟨_, by simp, by simp, rfl⟩
  · unfold evalSleepRefA at h
    simp only at h
    split at h
    · cases h; exact .inl ⟨_, by simp, by simp, rfl⟩
    · have := go h rfl
      simp_all
  · unfold evalSleepMain at h
    split at h
    · simp at h; simp_all
    · cases h; exact .inl ⟨_, by simp, by simp_all, rfl⟩
  · cases h; exact .inl ⟨_, by simp, by simp, rfl⟩
  · unfold evalWakeRefA at h
    simp only at h
    split at h
    · have := go h rfl
      simp_all
    · cases h; exact .inl ⟨_, by simp, by simp, rfl⟩
  · unfold evalWakeMain at h
    simp at h; simp_all
  · cases h; exact .inl ⟨_, by simp, by simp, rfl⟩
  · unfold evalPmRefA at h
    simp only at h
    split at h
    · cases h; exact .inl ⟨_, by simp, by simp, rfl⟩
    · have := go h rfl
      simp_all
  · unfold evalPmMain at h
    split at h
    · cases h; simp_all
    · split at h
      · simp at h; simp_all
      · cases h; simp_all
  · cases h; exact .inl ⟨_, by simp, by simp, rfl⟩
  · unfold evalThRefA at h
    simp only at h
    split at h
    · cases h; exact .inl ⟨_, by simp, by simp, rfl⟩
    · have := go h rfl
      simp_all
  · unfold evalThMain at h
    split at h
    · cases h; simp_all
    · split at h
      · cases h; simp_all
      · cases h; simp_all

/-! A whole step (R171). -/

/-- Everything a step can do, by the rows of R171. -/
theorem step_cases {s t : State} (h : step s = .next t) :
    ((nextSample s).rst = true ∧ t = resetBlock (sampled s)) ∨
    ((nextSample s).rst = false ∧ ∃ w, (nextSample s).hcmd = some w ∧
      ((s.busy = true ∧ t = raiseOverrun (sampled s)) ∨
       (s.busy = false ∧ (∃ e, decodeHost w = .error e) ∧ t = raiseIllegal (sampled s)) ∨
       (s.busy = false ∧ ∃ i op m, decodeHost w = .ok i ∧ hostOperation i = some (op, m) ∧ (op ≠ .pm → m = .off) ∧
         t = loadExchange .refA opcState (latchWord op m (sampled s))))) ∨
    ((nextSample s).rst = false ∧ (nextSample s).hcmd = none ∧ s.fsm = .idle ∧ t = sampled s) ∨
    ((nextSample s).rst = false ∧ (nextSample s).hcmd = none ∧ s.fsm ≠ .idle ∧
      exchangeStep s.frame (sampled s) = .next t) := by
  unfold step at h
  cases hr : (nextSample s).rst with
  | true => simp only [hr, if_true] at h; cases h; simp
  | false =>
    simp only [hr, Bool.false_eq_true, if_false] at h
    right
    cases hc : (nextSample s).hcmd with
    | some w =>
      left
      simp only [source, hc] at h
      refine ⟨rfl, w, rfl, ?_⟩
      cases hb : s.busy with
      | true => rw [runSource_port_busy (by simpa using hb)] at h; cases h; simp
      | false =>
        cases hw : decodeHost w with
        | error e => rw [runSource_port_illegal (by simpa using hb) hw] at h; cases h; simp
        | ok i =>
          obtain ⟨op, m, ho, hm⟩ := hostOperation_of_decodeHost hw
          rw [runSource_port_legal (by simpa using hb) hw ho] at h
          cases h
          simp only [reduceCtorEq, false_and, exists_false, and_false, false_or, true_and]
          exact ⟨i, op, m, rfl, ho, hm, rfl⟩
    | none =>
      right
      simp only [source, hc, sampled_fsm, sampled_frame] at h
      by_cases hi : s.fsm = .idle
      · simp only [hi, if_true, runSource_nothing] at h
        cases h; simp [hi]
      · simp only [hi, if_false, runSource_exchange] at h
        exact .inr ⟨rfl, rfl, hi, h⟩

end Sys2Proof.Laws
end

