-- ==== Sys2Proof/Laws/PerInstr.lean ====
section
/-! SUPPORT. The family Encoding: an instruction's encoding has the length R85 gives its interface, and the bytes of a well
formed wire command sum to 0 mod 256 (R74, R92). -/

namespace Sys2Proof.Laws.Encoding

/-- How many bytes an instruction has (R85). -/
def width (i : Instr) : Nat := if i.wireFrame.isSome then 3 else 1

/-- The encoding has the interface's length, and a well-formed wire command's bytes sum to 0 mod 256. -/
def Statement (i : Instr) : Prop :=
  (encode i).length = width i ∧
    (i.wellFormed = true → i.wireFrame.isSome = true → (encode i).foldl (· + ·) 0 = 0)

theorem statement_of_host {i : Instr} (h : i.wireFrame = none) (hl : (encode i).length = 1) : Statement i := by
  simp [Statement, width, h, hl]

theorem statement_of_wire {i : Instr} {f : Frame} (h : i.wireFrame = some f) (he : encode i = f.bytes) :
    Statement i := by
  refine ⟨by simp [width, h, he, Frame.bytes], fun hw _ => ?_⟩
  have : f.b0 + f.b1 + f.b2 = 0 := by simpa [Instr.wellFormed, h, Frame.sumsToZero] using hw
  simpa [he, Frame.bytes] using this

theorem getstate : Statement .getstate := statement_of_host rfl rfl
theorem sleep : Statement .sleep := statement_of_host rfl rfl
theorem wake : Statement .wake := statement_of_host rfl rfl
theorem pmOff : Statement .pmOff := statement_of_host rfl rfl
theorem pmFast : Statement .pmFast := statement_of_host rfl rfl
theorem pmMedium : Statement .pmMedium := statement_of_host rfl rfl
theorem pmSlow : Statement .pmSlow := statement_of_host rfl rfl
theorem th : Statement .th := statement_of_host rfl rfl
theorem cmdState (a c : Byte) : Statement (.cmdState a c) := statement_of_wire rfl rfl
theorem cmdToggle (a c : Byte) : Statement (.cmdToggle a c) := statement_of_wire rfl rfl
theorem cmdTh (a c : Byte) : Statement (.cmdTh a c) := statement_of_wire rfl rfl
theorem cmdPmFast (a c : Byte) : Statement (.cmdPmFast a c) := statement_of_wire rfl rfl
theorem cmdPmMedium (a c : Byte) : Statement (.cmdPmMedium a c) := statement_of_wire rfl rfl
theorem cmdPmSlow (a c : Byte) : Statement (.cmdPmSlow a c) := statement_of_wire rfl rfl
theorem cmdPmOff (a c : Byte) : Statement (.cmdPmOff a c) := statement_of_wire rfl rfl

end Sys2Proof.Laws.Encoding
end

