-- ==== Sys2Proof/Laws/Run.lean ====
section
/-! SUPPORT. Runs: one step at a time, one run after another, and a step under a scripted sample. -/

namespace Sys2Proof.Laws

open Sys2Proof.Machine Sys2Proof.Safety

@[simp] theorem run_zero (s : State) : Sys2Proof.core.run 0 s = .next s := rfl

/-- A run whose first step answers a next state goes on from there. -/
theorem run_succ {s t : State} (h : step s = .next t) (k : Nat) :
    Sys2Proof.core.run (k + 1) s = Sys2Proof.core.run k t := by
  have h' : Sys2Proof.core.step s = .next t := h
  simp only [Host.Core.run, h']

/-- Two runs after each other are one. -/
theorem run_add {s t : State} {j : Nat} (h : Sys2Proof.core.run j s = .next t) (k : Nat) :
    Sys2Proof.core.run (j + k) s = Sys2Proof.core.run k t := by
  induction j generalizing s with
  | zero => cases h; simp
  | succ j ih =>
    cases hstep : Sys2Proof.core.step s with
    | next u =>
      simp only [Host.Core.run, hstep] at h
      rw [Nat.add_right_comm, run_succ hstep]
      exact ih h
    | fault r => simp only [Host.Core.run, hstep] at h; cases h
    | refused r => simp only [Host.Core.run, hstep] at h; cases h

/-! A scripted sample. -/

@[simp] theorem nextSample_withEnv (s : State) (p : Sample) (l : List Sample) :
    nextSample (withEnv s (p :: l)) = p := rfl

@[simp] theorem sampled_withEnv (s : State) (p : Sample) (l : List Sample) :
    sampled (withEnv s (p :: l)) = applySample p (withEnv s l) := rfl

@[simp] theorem withEnv_env (s : State) : withEnv s s.env = s := rfl

/-- Under a quiet sample an exchange in progress takes its next micro-step. -/
theorem step_quiet {s : State} (h : s.fsm ≠ .idle) (d : Byte) (rx : List Byte) (l : List Sample) :
    step (withEnv s (quiet d rx :: l)) = exchangeStep s.frame (applySample (quiet d rx) (withEnv s l)) := by
  have hs : (applySample (quiet d rx) (withEnv s l)).fsm ≠ .idle := h
  have : step (withEnv s (quiet d rx :: l)) =
      runSource (source (quiet d rx) (applySample (quiet d rx) (withEnv s l)))
        (applySample (quiet d rx) (withEnv s l)) := rfl
  rw [this, show source (quiet d rx) (applySample (quiet d rx) (withEnv s l)) = .exchange s.frame from if_neg hs,
    runSource_exchange]

/-- A legal word is accepted under the sample that presents it. -/
theorem step_presents {s : State} {w : Byte} {i : Instr} {op : HostOp} {m : Mode} (h : s.busy = false)
    (hw : decodeHost w = .ok i) (ho : hostOperation i = some (op, m)) (d : Byte) (l : List Sample) :
    step (withEnv s (presents d w :: l)) =
      .next (loadExchange .refA opcState (latchWord op m (applySample (presents d w) (withEnv s l)))) :=
  runSource_port_legal (s := applySample (presents d w) (withEnv s l)) h hw ho

end Sys2Proof.Laws
end

