-- ==== Sys2Proof/Tests/Slice0.lean ====
section
/-! SUPPORT. Tests on single steps, with the expected values of 95_test_vectors.md or of the rule named, and for every
obligation with hypotheses a witness that meets all of them together. -/

namespace Sys2Proof.Tests

open Sys2Proof.Machine Sys2Proof.Safety

/-! Small states. -/

/-- The state of an answer, if it is a next state. -/
def after : Answer → Option State
  | .next t => some t
  | .fault _ => none
  | .refused _ => none

/-- IDLE, with the example address of 95_test_vectors.md. -/
def idle : State := { State.reset with devAddr := 0x81 }

/-- An operation in progress: the frame `81 16 69` of a state refresh. -/
def busyIn (f : Fsm) : State :=
  { idle with busy := true, fsm := f, addrL := 0x81, frame := ⟨0x81, 0x16, 0x69⟩, txReady := true }

/-- An operation in EVAL whose response is `81 16 b`. -/
def evalIn (op : HostOp) (ph : Phase) (chkErr : Bool) (b : Byte) : State :=
  { busyIn .eval with
    opL := op, phase := ph, chkErr := chkErr, txi := 2, resp := ((Memory.write [] 0 0x81).write 1 0x16).write 2 b,
    respLen := 3 }

/-- What selects an EVAL arm and its branch: control state, operation, phase and CHK_ERR. -/
def arm (s : State) : Fsm × HostOp × Phase × Bool := (s.fsm, s.opL, s.phase, s.chkErr)

/-- The response PM15 of 95_test_vectors.md. -/
def pm15 : List Byte :=
  [0x81, 0x11, 0x00, 0x01, 0x2C, 0x00, 0x64, 0x02, 0x58, 0x00, 0xC8, 0x03, 0xE8, 0x01, 0xCF]

/-- The response TH8 of 95_test_vectors.md. -/
def th8 : List Byte := [0x81, 0x14, 0x00, 0x09, 0xC4, 0x13, 0x88, 0x03]

/-- The response S00 of 95_test_vectors.md: valid, state 0x00. -/
def s00 : List Byte := [0x81, 0x16, 0x00, 0x69]

/-- The response S01 of 95_test_vectors.md: valid, state 0x01. -/
def s01 : List Byte := [0x81, 0x16, 0x01, 0x68]

/-- The response S80 of 95_test_vectors.md: valid, state 0x80. -/
def s80 : List Byte := [0x81, 0x16, 0x80, 0xE9]

/-- The response S10 of 95_test_vectors.md: valid, state 0x10. -/
def s10 : List Byte := [0x81, 0x16, 0x10, 0x59]

/-- The response BAD of 95_test_vectors.md: invalid, state byte 0x00. -/
def bad : List Byte := [0x81, 0x16, 0x00, 0x68]

/-- The busy response of F-vectors in mode MEDIUM (95_test_vectors.md T-L1.9). -/
def pmBusy16 : List Byte := [0x81, 0x12, 0x16, 0x57]

/-- A response from address 0 on, as RESP holds it. -/
def held (l : List Byte) : Memory := (l.zipIdx).foldl (fun m p => m.write p.2 p.1) []

/-- PM's MAIN exchange in EVAL with a response. -/
def pmMainWith (m : Mode) (l : List Byte) : State :=
  { evalIn .pm .main false 0x00 with modeL := m, resp := held l, respLen := BitVec.ofNat 5 l.length }

/-- TH's MAIN exchange in EVAL with a response. -/
def thMainWith (l : List Byte) : State :=
  { evalIn .th .main false 0x00 with resp := held l, respLen := BitVec.ofNat 5 l.length }

/-- A state whose next sample is `p`. -/
def facing (p : Sample) (s : State) : State := withEnv s [p]

/-- A sample with reset asserted while a word is presented and a byte arrives. -/
def resetSample : Sample := { rst := true, hcmd := some 0x01, devAddr := 0x81, txReady := true, rxIn := [0xAA] }

/-! Well-formedness: each check refuses an ill-formed term (R74). -/

theorem test_ill_formed_state : (Instr.cmdState 0x81 0x68).wellFormed = false := by decide
theorem test_ill_formed_toggle : (Instr.cmdToggle 0x81 0x6B).wellFormed = false := by decide
theorem test_ill_formed_th : (Instr.cmdTh 0x81 0x00).wellFormed = false := by decide
theorem test_ill_formed_pm_fast : (Instr.cmdPmFast 0x80 0x6E).wellFormed = false := by decide
theorem test_ill_formed_pm_medium : (Instr.cmdPmMedium 0x81 0x6C).wellFormed = false := by decide
theorem test_ill_formed_pm_slow : (Instr.cmdPmSlow 0x81 0x6D).wellFormed = false := by decide
theorem test_ill_formed_pm_off : (Instr.cmdPmOff 0x81 0x80).wellFormed = false := by decide

/-- The frames of R96 for A = 0x81 (T-L1.3) are well formed. -/
theorem test_frames_well_formed :
    ([.cmdState 0x81 0x69, .cmdToggle 0x81 0x6A, .cmdTh 0x81 0x6B, .cmdPmFast 0x81 0x6E, .cmdPmMedium 0x81 0x6D,
      .cmdPmSlow 0x81 0x6C, .cmdPmOff 0x81 0x7F] : List Instr).all Instr.wellFormed = true := by decide

/-! Decoding: a word written out from R70 to R72 and R74, R75 for every row (T-L1.3). -/

theorem test_decode_getstate : decode [0b00000001#8] = .ok .getstate := by decide
theorem test_decode_sleep : decode [0b00000010#8] = .ok .sleep := by decide
theorem test_decode_wake : decode [0b00000011#8] = .ok .wake := by decide
theorem test_decode_pm_off : decode [0b00000100#8] = .ok .pmOff := by decide
theorem test_decode_pm_fast : decode [0b00010100#8] = .ok .pmFast := by decide
theorem test_decode_pm_medium : decode [0b00100100#8] = .ok .pmMedium := by decide
theorem test_decode_pm_slow : decode [0b00110100#8] = .ok .pmSlow := by decide
theorem test_decode_th : decode [0b00000101#8] = .ok .th := by decide
theorem test_decode_cmd_state :
    decode [0b10000001#8, 0b00010110#8, 0b01101001#8] = .ok (.cmdState 0x81 0x69) := by decide
theorem test_decode_cmd_toggle :
    decode [0b10000001#8, 0b00010101#8, 0b01101010#8] = .ok (.cmdToggle 0x81 0x6A) := by decide
theorem test_decode_cmd_th :
    decode [0b10000001#8, 0b00010100#8, 0b01101011#8] = .ok (.cmdTh 0x81 0x6B) := by decide
theorem test_decode_cmd_pm_fast :
    decode [0b10000001#8, 0b00010001#8, 0b01101110#8] = .ok (.cmdPmFast 0x81 0x6E) := by decide
theorem test_decode_cmd_pm_medium :
    decode [0b10000001#8, 0b00010010#8, 0b01101101#8] = .ok (.cmdPmMedium 0x81 0x6D) := by decide
theorem test_decode_cmd_pm_slow :
    decode [0b10000001#8, 0b00010011#8, 0b01101100#8] = .ok (.cmdPmSlow 0x81 0x6C) := by decide
theorem test_decode_cmd_pm_off :
    decode [0b10000001#8, 0b00000000#8, 0b01111111#8] = .ok (.cmdPmOff 0x81 0x7F) := by decide

/-- Byte 0 of a frame is bits [23:16] of its table word (R74). -/
theorem test_table_word : decodeTableWord 24 0x811669 = some (.cmdState 0x81 0x69) := by decide

/-- The refusals name their reason (R70 to R72, R75, R85). -/
theorem test_decode_refusals :
    decode [0x41] = .error (.reservedBits 0x41) ∧ decode [0x11] = .error (.modeNotAllowed 0x11) ∧
      decode [0x06] = .error (.unassignedOp 0x06) ∧ decode [0x81, 0x10, 0x6F] = .error (.unassignedOpcode 0x10) ∧
      decode [0x81, 0x16] = .error (.badLength 2) := by decide

/-! Fetching: the word placed by `withFetchWord` is the one the next step runs. -/

/-- Host words of the table, placed after reset, start the refresh (R140). -/
theorem test_fetch_host_words :
    [0x01, 0x02, 0x03, 0x04, 0x14, 0x24, 0x34, 0x05].map
      (fun w => (after (step (State.reset.withFetchWord 8 w))).map fun t => (t.opL, t.modeL, t.fsm)) =
    [some (.getState, .off, .tx), some (.sleep, .off, .tx), some (.wake, .off, .tx), some (.pm, .off, .tx),
      some (.pm, .fast, .tx), some (.pm, .medium, .tx), some (.pm, .slow, .tx), some (.th, .off, .tx)] := by decide

/-- Wire commands of the table, placed after reset, send their first byte (R143). -/
theorem test_fetch_wire_commands :
    [0x811669, 0x81156A, 0x81146B, 0x81116E, 0x81126D, 0x81136C, 0x81007F].map
      (fun w => (after (step (State.reset.withFetchWord 24 w))).map fun t => (t.txHist, t.fsm)) =
    List.replicate 7 (some ([0x81], .gap)) := by decide

/-! Functions (T-L1.2, T-L1.4, T-L1.7, R22). -/

theorem test_chk_corners : chk 0x00 0x00 = 0x00 ∧ chk 0xFF 0xFF = 0x02 ∧ chk 0xFF 0x16 = 0xEB ∧ chk 0x81 0x16 = 0x69 := by
  decide

theorem test_flags_of_a5 : allFlags.filter (fun f => flag f 0xA5) = [.sleep, .notReady, .fanErr, .laserErr] := by decide

theorem test_density_truncates : density 0x01CF = 46 ∧ density 0xFFFF = 6553 := by decide

theorem test_status_after_reset : rdData State.reset 0x00 = 0x0008 := by decide

/-- STATUS = 0x1102 of T-L1.8: DONE, MODE_CUR = FAST, OUTCOME = OK. -/
theorem test_status_of_t_l1_8 :
    rdData { idle with done := true, noMeas := false, modeCur := .fast, outcome := .ok } 0x00 = 0x1102 := by decide

/-- A status word with every bit set that the block can set: 0x637F. -/
theorem test_status_all_set :
    rdData
      { idle with
        busy := true, done := true, chkErr := true, noMeas := true, reportChkInvalid := true, illegal := true,
        overrun := true, modeCur := .slow, outcome := .chkRequery } 0x00 = 0x637F := by decide

/-! Single steps of the meanings: expected results from the rule named. -/

/-- The latches of an accepted word take `dev_addr` (R140). -/
theorem test_accept_latches :
    (after (exec .pmSlow idle)).map (fun t => (t.opL, t.modeL, t.addrL, t.busy, t.frame)) =
      some (.pm, .slow, 0x81, true, ⟨0x81, 0x16, 0x69⟩) := by decide

/-- A word while BUSY is dropped (R142). -/
theorem test_overrun : (after (exec .th (busyIn .gap))).map (fun t => (t.overrun, t.opL)) = some (true, .getState) := by
  decide

/-- The transport is not ready: TX stays (R143, R101). -/
theorem test_tx_stall :
    (after (exec (.cmdState 0x81 0x69) { busyIn .tx with txReady := false })).map (fun t => (t.fsm, t.txHist)) =
      some (.tx, []) := by decide

/-- The checksum byte is the third (R143). -/
theorem test_tx_third_byte :
    (after (exec (.cmdToggle 0x81 0x6A) { busyIn .tx with txi := 2 })).map (·.txHist) = some [0x6A] := by decide

/-- The sixteenth byte is stored and the seventeenth is not (R106). -/
theorem test_drain_cap :
    (after (exec (.cmdTh 0x81 0x6B) { busyIn .drain with respLen := 15, rxBuf := [0x7E] })).map
        (fun t => (t.resp, t.respLen, t.sum)) = some ([(15, 0x7E)], 16, 0x7E) ∧
      (after (exec (.cmdTh 0x81 0x6B) { busyIn .drain with respLen := 16, rxBuf := [0x7E] })).map
        (fun t => (t.resp, t.respLen, t.rxBuf)) = some ([], 16, []) := by decide

/-- PM15 in mode FAST (T-L1.8). -/
theorem test_pm_fast_latches :
    (after (exec (.cmdPmFast 0x81 0x6E) (pmMainWith .fast pm15))).map
        (fun t => ([t.pm1Cnt, t.pm1DenRaw, t.pm25Cnt, t.pm25DenRaw, t.pm10Cnt, t.pm10DenRaw], t.modeCur, t.noMeas)) =
      some ([300, 100, 600, 200, 1000, 463], .fast, false) := by decide

/-- The busy code in mode MEDIUM (T-L1.9). -/
theorem test_pm_medium_busy :
    (after (exec (.cmdPmMedium 0x81 0x6D) (pmMainWith .medium pmBusy16))).map
        (fun t => (t.phase, t.noMeas, t.modeCur, t.stateCode)) = some (.refB, true, .off, 0x16) := by decide

/-- A failed checksum in mode SLOW aborts (R155). -/
theorem test_pm_slow_abort :
    (after (exec (.cmdPmSlow 0x81 0x6C) { pmMainWith .slow bad with chkErr := true })).map
        (fun t => (t.outcome, t.stateCode, t.reportChkInvalid)) = some (.chkAbort, 0x00, false) := by decide

/-- Mode OFF is latched as any other (R156). -/
theorem test_pm_off_latches :
    (after (exec (.cmdPmOff 0x81 0x7F) { pmMainWith .off pm15 with modeCur := .slow })).map
        (fun t => (t.outcome, t.modeCur)) = some (.ok, .off) := by decide

/-- TH8 gives T_RAW = 0x09C4 and H_RAW = 0x1388 (R185). -/
theorem test_th_latches :
    (after (exec (.cmdTh 0x81 0x6B) (thMainWith th8))).map (fun t => (t.tRaw, t.hRaw, t.noMeas, t.outcome)) =
      some (0x09C4, 0x1388, false, .ok) := by decide

/-- The override of a failed checksum (T-L1.5): GETSTATE on BAD. -/
theorem test_getstate_override :
    (after (exec (.cmdState 0x81 0x69) (evalIn .getState .refA true 0x00))).map
        (fun t => (t.stateCode, t.reportChkInvalid, t.outcome)) = some (0xFF, true, .ok) := by decide

/-- A second SLEEP on a sleeping sensor sends no toggle (T-L1.6). -/
theorem test_sleep_idempotent :
    (after (exec (.cmdState 0x81 0x69) (evalIn .sleep .refA false 0x01))).map (fun t => (t.fsm, t.outcome)) =
      some (.idle, .already) := by decide

/-! Proper states. -/

/-- The state after reset meets the invariant. -/
theorem witness_inv_reset : Inv State.reset := by
  constructor
  all_goals first
    | decide
    | exact fun _ _ => rfl
    | exact fun h => nomatch h

/-- An operation in progress that meets the invariant: GETSTATE just accepted. -/
def accepted : State := loadExchange .refA opcState (latchWord .getState .off idle)

theorem witness_inv_busy : Inv accepted ∧ accepted.busy = true := by
  refine ⟨?_, rfl⟩
  constructor
  case built => exact fun _ => ⟨_, rfl, rfl⟩
  case zeroFilled => exact fun _ _ => rfl
  all_goals decide

/-- Both premises of `StepKeepsTheStateProper` together, in IDLE and with an operation in progress. -/
theorem witness_StepKeepsTheStateProper :
    (Inv State.reset ∧ ∃ t, step State.reset = .next t) ∧ Inv accepted ∧ ∃ t, step accepted = .next t :=
  ⟨⟨witness_inv_reset, _, rfl⟩, witness_inv_busy.1, _, rfl⟩

theorem witness_ProperStateNeverStops : Inv State.reset ∧ Inv accepted ∧ accepted.busy = true :=
  ⟨witness_inv_reset, witness_inv_busy⟩

/-! Witnesses: encodings. -/

theorem witness_DecodeEncodeAgree :
    (Instr.cmdPmOff 0x81 0x7F).wellFormed = true ∧ Instr.th.wellFormed = true ∧
      decode [0x81, 0x00, 0x7F] = .ok (.cmdPmOff 0x81 0x7F) := by decide

theorem witness_LegalHostWordsAreTheEight_legal : decode [0x34] = .ok .pmSlow := by decide

theorem witness_LegalHostWordsAreTheEight_refused :
    (0x44#8).extractLsb' 6 2 ≠ 0 ∧ ((0x15#8).extractLsb' 4 2 ≠ 0 ∧ (0x15#8).extractLsb' 0 4 ≠ 4) ∧
      (0x10#8).extractLsb' 0 4 = 0 ∧ 5 < ((0x06#8).extractLsb' 0 4).toNat := by decide

/-! Witnesses: a step. -/

theorem witness_ResetBeatsEverything :
    (nextSample (facing resetSample accepted)).rst = true ∧
      (after (step (facing resetSample accepted))).map (fun t => (t.busy, t.overrun, t.rxBuf)) =
        some (false, false, [0xAA]) := by decide

theorem witness_StepRunsTheDecodedInstruction_word :
    (nextSample (facing (presents 0x81 0x05) idle)).rst = false ∧
      (nextSample (facing (presents 0x81 0x05) idle)).hcmd = some 0x05 ∧ decode [0x05] = .ok .th := by decide

theorem witness_StepRunsTheDecodedInstruction_exchange :
    (nextSample (facing (quiet 0x81 []) accepted)).rst = false ∧
      (nextSample (facing (quiet 0x81 []) accepted)).hcmd = none ∧ accepted.fsm ≠ .idle ∧
      decode accepted.frame.bytes = .ok (.cmdState 0x81 0x69) := by decide

theorem witness_StepRunsTheDecodedInstruction_idle :
    (nextSample (facing (quiet 0x81 []) idle)).rst = false ∧
      (nextSample (facing (quiet 0x81 []) idle)).hcmd = none ∧ idle.fsm = .idle := by decide

theorem witness_LegalWordIsAccepted :
    (nextSample (facing (presents 0x81 0x34) idle)).rst = false ∧
      (nextSample (facing (presents 0x81 0x34) idle)).hcmd = some 0x34 ∧ idle.busy = false ∧
      decode [0x34] = .ok .pmSlow := by decide

theorem witness_HostWordStartsItsOperation :
    [Instr.getstate, .sleep, .wake, .pmOff, .pmFast, .pmMedium, .pmSlow, .th].map hostOperation =
        [some (.getState, .off), some (.sleep, .off), some (.wake, .off), some (.pm, .off), some (.pm, .fast),
          some (.pm, .medium), some (.pm, .slow), some (.th, .off)] ∧
      idle.busy = false ∧ accepted.busy = true := by decide

theorem witness_AnyWordWhileBusyOnlySetsOverrun :
    (nextSample (facing (presents 0x81 0xFF) accepted)).rst = false ∧
      (nextSample (facing (presents 0x81 0xFF) accepted)).hcmd = some 0xFF ∧ accepted.busy = true := by decide

theorem witness_IllegalWordOnlySetsIllegal :
    (nextSample (facing (presents 0x81 0x06) idle)).rst = false ∧
      (nextSample (facing (presents 0x81 0x06) idle)).hcmd = some 0x06 ∧ idle.busy = false ∧
      ∀ i, decode [0x06] ≠ .ok i := by
  refine ⟨rfl, rfl, rfl, fun i h => ?_⟩
  rw [show decode [0x06] = .error (.unassignedOp 0x06) by decide] at h
  cases h

/-! Witnesses: the micro-steps of an exchange. -/

/-- TX with `txi` at 0, 1 and 2, and a transport that is not ready. -/
theorem witness_WireCommandSendsItsNextByte :
    (Instr.cmdState 0x81 0x69).wireFrame = some ⟨0x81, 0x16, 0x69⟩ ∧ (busyIn .tx).fsm = .tx ∧
      ([0, 1, 2].map fun k =>
        (after (exec (.cmdState 0x81 0x69) { busyIn .tx with txi := k })).map (·.txHist)) =
        [some [0x81], some [0x16], some [0x69]] ∧
      ({ busyIn .tx with txReady := false }).txReady = false := by decide

/-- GAP with `txi` at 1 and at 2. -/
theorem witness_GapLeadsToTheNextByte :
    (Instr.cmdTh 0x81 0x6B).wireFrame = some ⟨0x81, 0x14, 0x6B⟩ ∧ (busyIn .gap).fsm = .gap ∧
      (after (exec (.cmdTh 0x81 0x6B) { busyIn .gap with txi := 1 })).map (fun t => (t.fsm, t.txi)) = some (.tx, 2) ∧
      (after (exec (.cmdTh 0x81 0x6B) { busyIn .gap with txi := 2 })).map (fun t => (t.fsm, t.txi)) =
        some (.settle, 2) := by decide

/-- SETTLE of a drained exchange and of the wake toggle. -/
theorem witness_SettleStartsTheDrain :
    (Instr.cmdToggle 0x81 0x6A).wireFrame = some ⟨0x81, 0x15, 0x6A⟩ ∧ (busyIn .settle).fsm = .settle ∧
      (busyIn .settle).drainEn = true ∧ minWaitMs (busyIn .settle) = 350 ∧
      minWaitMs { busyIn .settle with waitSel := .wake, drainEn := false } = 1000 ∧
      (after (exec (.cmdToggle 0x81 0x6A) { busyIn .settle with waitSel := .wake, drainEn := false })).map (·.fsm) =
        some .eval := by decide

/-- DRAIN below the cap at its last place, and at the cap. -/
theorem witness_DrainConsumesOneByte :
    (Instr.cmdState 0x81 0x69).wireFrame = some ⟨0x81, 0x16, 0x69⟩ ∧
      (let s := { busyIn .drain with respLen := 15, rxBuf := [0x7E, 0x01] }
       s.fsm = .drain ∧ s.resp.wf = true ∧ s.rxBuf = 0x7E :: [0x01] ∧ s.respLen.toNat < 16) ∧
      (let s := { busyIn .drain with respLen := 16, rxBuf := [0x7E, 0x01] }
       s.fsm = .drain ∧ s.resp.wf = true ∧ s.rxBuf = 0x7E :: [0x01] ∧ 16 ≤ s.respLen.toNat) := by decide

/-- DRAIN with nothing available: a valid and an invalid sum. -/
theorem witness_DrainEndValidates :
    (Instr.cmdState 0x81 0x69).wireFrame = some ⟨0x81, 0x16, 0x69⟩ ∧ (busyIn .drain).fsm = .drain ∧
      (busyIn .drain).rxBuf = [] ∧
      (after (exec (.cmdState 0x81 0x69) (busyIn .drain))).map (·.chkErr) = some false ∧
      (after (exec (.cmdState 0x81 0x69) { busyIn .drain with sum := 0x01 })).map (·.chkErr) = some true := by decide

/-! Witnesses: the EVAL arms, one per clause. -/

theorem witness_GetstateArmDecodesAndEnds :
    (evalIn .getState .refA false 0x80).fsm = .eval ∧ (evalIn .getState .refA false 0x80).opL = .getState ∧
      (evalIn .getState .refA false 0x80).phase = .refA := by decide

theorem witness_SleepArms :
    (arm (evalIn .sleep .refA false 0x01) = (.eval, .sleep, .refA, false) ∧
        (refreshByte (evalIn .sleep .refA false 0x01)).getLsbD 0 = true) ∧
      (arm (evalIn .sleep .refA true 0x00) = (.eval, .sleep, .refA, true) ∧
        (refreshByte (evalIn .sleep .refA true 0x00)).getLsbD 0 = true) ∧
      (arm (evalIn .sleep .refA false 0xFE) = (.eval, .sleep, .refA, false) ∧
        (refreshByte (evalIn .sleep .refA false 0xFE)).getLsbD 0 = false) ∧
      arm (evalIn .sleep .main true 0x00) = (.eval, .sleep, .main, true) ∧
      arm (evalIn .sleep .main false 0x01) = (.eval, .sleep, .main, false) ∧
      arm (evalIn .sleep .refB false 0x00) = (.eval, .sleep, .refB, false) := by decide

theorem witness_WakeArms :
    (arm (evalIn .wake .refA false 0x00) = (.eval, .wake, .refA, false) ∧
        (refreshByte (evalIn .wake .refA false 0x00)).getLsbD 0 = false) ∧
      (arm (evalIn .wake .refA false 0x01) = (.eval, .wake, .refA, false) ∧
        (refreshByte (evalIn .wake .refA false 0x01)).getLsbD 0 = true) ∧
      arm (evalIn .wake .main false 0x00) = (.eval, .wake, .main, false) ∧
      arm (evalIn .wake .refB false 0x00) = (.eval, .wake, .refB, false) := by decide

theorem witness_PmRefreshArms :
    (arm (evalIn .pm .refA false 0x04) = (.eval, .pm, .refA, false) ∧
        refreshByte (evalIn .pm .refA false 0x04) &&& 0x85 ≠ 0) ∧
      (arm (evalIn .pm .refA false 0x7A) = (.eval, .pm, .refA, false) ∧
        refreshByte (evalIn .pm .refA false 0x7A) &&& 0x85 = 0) ∧
      arm (evalIn .pm .refB false 0x00) = (.eval, .pm, .refB, false) := by decide

/-- The opcode of each mode follows an open gate (R94). -/
theorem test_pm_opcodes :
    [Mode.off, .fast, .medium, .slow].map (fun m =>
        (after (exec (.cmdState 0x81 0x69) { evalIn .pm .refA false 0x7A with modeL := m })).map (·.frame.b1)) =
      [some 0x00, some 0x11, some 0x12, some 0x13] := by decide

theorem witness_PmMainLatchesTheWindows :
    isPmCommand (.cmdPmFast 0x81 0x6E) ∧ isPmCommand (.cmdPmMedium 0x81 0x6D) ∧ isPmCommand (.cmdPmSlow 0x81 0x6C) ∧
      isPmCommand (.cmdPmOff 0x81 0x7F) ∧ (pmMainWith .fast pm15).fsm = .eval ∧ (pmMainWith .fast pm15).opL = .pm ∧
      (pmMainWith .fast pm15).phase = .main ∧ (pmMainWith .fast pm15).chkErr = false ∧
      (pmMainWith .fast pm15).resp.read 2 ≠ 0x16 :=
  ⟨⟨_, _, .inr (.inl rfl)⟩, ⟨_, _, .inr (.inr (.inl rfl))⟩, ⟨_, _, .inr (.inr (.inr rfl))⟩, ⟨_, _, .inl rfl⟩,
    rfl, rfl, rfl, rfl, by decide⟩

theorem witness_PmMainAbortsOrReportsBusy :
    isPmCommand (.cmdPmMedium 0x81 0x6D) ∧
      (arm (pmMainWith .medium pmBusy16) = (.eval, .pm, .main, false) ∧
        (pmMainWith .medium pmBusy16).resp.read 2 = 0x16) ∧
      arm { pmMainWith .medium bad with chkErr := true } = (.eval, .pm, .main, true) :=
  ⟨⟨_, _, .inr (.inr (.inl rfl))⟩, ⟨rfl, rfl⟩, rfl⟩

theorem witness_ThArms :
    (arm (evalIn .th .refA false 0x10) = (.eval, .th, .refA, false) ∧
        refreshByte (evalIn .th .refA false 0x10) &&& 0x14 ≠ 0) ∧
      (arm (evalIn .th .refA false 0xEB) = (.eval, .th, .refA, false) ∧
        refreshByte (evalIn .th .refA false 0xEB) &&& 0x14 = 0) ∧
      arm (evalIn .th .main true 0x00) = (.eval, .th, .main, true) ∧
      (arm (evalIn .th .main false 0x16) = (.eval, .th, .main, false) ∧
        (evalIn .th .main false 0x16).resp.read 2 = 0x16) ∧
      (arm (thMainWith th8) = (.eval, .th, .main, false) ∧ (thMainWith th8).resp.read 2 ≠ 0x16) := by decide

/-! Witnesses: the read port. -/

/-- The first and the last byte of RESP, and the reserved indexes next to them. -/
theorem witness_ReadPortMap :
    (0x10#6).toNat = 0x10 ∧ (0x1F#6).toNat = 0x1F ∧ 0x20 ≤ (0x20#6).toNat ∧ 0x20 ≤ (0x3F#6).toNat ∧
      rdData { idle with resp := [(0, 0x81), (15, 0x7E)] } 0x10 = 0x0081 ∧
      rdData { idle with resp := [(0, 0x81), (15, 0x7E)] } 0x1F = 0x007E ∧
      rdData { idle with resp := [(0, 0x81), (15, 0x7E)] } 0x20 = 0x0000 ∧
      rdData { idle with resp := [(0, 0x81), (15, 0x7E)] } 0x0F = 0x0000 := by decide

/-- A byte is offered in TX, and outside it tx_data has no level (R101, log 21). -/
theorem test_tx_data : txData (busyIn .tx) = some 0x81 ∧ txData (busyIn .gap) = none := by decide

/-! Witnesses: frames. -/

theorem witness_HostWordFrame :
    hostOperation .wake = some (.wake, .off) ∧ (after (exec .wake idle)).isSome = true ∧
      (after (exec .wake accepted)).isSome = true ∧ idle.busy = false ∧ accepted.busy = true := by decide

/-- One state for each control state outside EVAL. -/
theorem witness_ChannelMicroStepFrame :
    (Instr.cmdPmSlow 0x81 0x6C).wireFrame = some ⟨0x81, 0x13, 0x6C⟩ ∧
      [Fsm.idle, .tx, .gap, .settle, .drain].all
        (fun f => (busyIn f).fsm != .eval && (after (exec (.cmdPmSlow 0x81 0x6C) (busyIn f))).isSome) = true := by decide

theorem witness_EvalFrame :
    (Instr.cmdState 0x81 0x69).wireFrame = some ⟨0x81, 0x16, 0x69⟩ ∧ (evalIn .sleep .refA false 0x00).fsm = .eval ∧
      (after (exec (.cmdState 0x81 0x69) (evalIn .sleep .refA false 0x00))).isSome = true ∧
      (evalIn .sleep .refA false 0x00).opL ≠ .pm ∧ (evalIn .sleep .refA false 0x00).opL ≠ .th ∧
      (evalIn .pm .refB false 0x00).phase ≠ .main := by decide

/-! Witnesses: stops. -/

theorem witness_OnlyImpossiblePairsStop :
    (Instr.cmdState 0x81 0x69).wireFrame = some ⟨0x81, 0x16, 0x69⟩ ∧ (evalIn .th .refB false 0x00).fsm = .eval ∧
      after (exec (.cmdState 0x81 0x69) (evalIn .th .refB false 0x00)) = none ∧
      after (exec (.cmdState 0x81 0x69) (evalIn .getState .main false 0x00)) = none ∧
      after (step (facing (quiet 0x81 []) (evalIn .th .refB false 0x00))) = none ∧
      (after (exec (.cmdState 0x81 0x69) (evalIn .pm .refB false 0x00))).isSome = true := by decide

/-! Witnesses: who writes what. -/

theorem witness_StickyBitsStay :
    (after (step (facing (presents 0x81 0x06) { idle with overrun := true }))).map (fun t => (t.illegal, t.overrun)) =
        some (true, true) ∧
      (nextSample (facing (presents 0x81 0x06) { idle with overrun := true })).rst = false ∧
      (after (step (facing (presents 0x81 0x01) { idle with illegal := true }))).map (·.illegal) = some true := by decide

/-- CHK_ERR at a drain's end, at reset, and in a micro-step that leaves it. -/
theorem witness_ChkErrIsWrittenAtDrainEndOnly :
    (after (step (facing (quiet 0x81 []) { busyIn .drain with sum := 0x23 }))).map (·.chkErr) = some true ∧
      ({ busyIn .drain with sum := 0x23 }).chkErr = false ∧
      (after (step (facing resetSample { idle with chkErr := true }))).map (·.chkErr) = some false ∧
      (after (step (facing (quiet 0x81 []) { busyIn .gap with chkErr := true }))).map (·.chkErr) = some true := by decide

/-- STATE_CODE changes in EVAL. -/
theorem witness_StateCodeIsWrittenByDecodeOnly :
    (after (step (facing (quiet 0x81 []) (evalIn .getState .refA false 0x80)))).map (·.stateCode) = some 0x80 ∧
      (evalIn .getState .refA false 0x80).stateCode = 0x00 := by decide

/-- Both kinds of measurement words change where their latch runs. -/
theorem witness_MeasurementsAreWrittenByLatchOnly :
    (after (step (facing (quiet 0x81 []) (pmMainWith .fast pm15)))).map (fun t => (t.pm1Cnt, t.modeCur)) =
        some (300, .fast) ∧
      (after (step (facing (quiet 0x81 []) (thMainWith th8)))).map (·.tRaw) = some 0x09C4 ∧
      (pmMainWith .fast pm15).pm1Cnt = 0x0000 ∧ (thMainWith th8).tRaw = 0x0000 := by decide

/-- NO_MEAS is set by the busy code and cleared by a latch. -/
theorem witness_NoMeasFollowsTheBusyTest :
    (after (step (facing (quiet 0x81 []) { pmMainWith .medium pmBusy16 with noMeas := false }))).map (·.noMeas) =
        some true ∧
      (after (step (facing (quiet 0x81 []) (thMainWith th8)))).map (·.noMeas) = some false ∧
      (thMainWith th8).noMeas = true := by decide

/-- The latches change where a word is accepted. -/
theorem witness_LatchesHoldDuringAnOperation :
    (after (step (facing (presents 0x81 0x24) idle))).map (fun t => (t.opL, t.modeL, t.addrL)) =
        some (.pm, .medium, 0x81) ∧
      (idle.opL, idle.modeL, idle.addrL) = (.getState, .off, 0x00) := by decide

/-- RESP changes where a drain starts and in DRAIN. -/
theorem witness_RespChangesOnlyInDrains :
    (after (step (facing (quiet 0x81 []) { busyIn .settle with resp := [(0, 0x81)], respLen := 1 }))).map
        (fun t => (t.resp, t.respLen)) = some ([], 0) ∧
      (after (step (facing (quiet 0x81 [0x81]) (busyIn .drain)))).map (fun t => (t.resp, t.respLen)) =
        some ([(0, 0x81)], 1) := by decide

/-- A byte that arrives in the micro-step of an empty buffer is consumed in it, and outside DRAIN it stays. -/
theorem witness_ReceivedBytesAreOnlyDrained :
    (after (step (facing (quiet 0x81 [0x55]) (busyIn .drain)))).map (·.rxBuf) = some [] ∧
      (after (step (facing (quiet 0x81 [0x55]) (busyIn .gap)))).map (·.rxBuf) = some [0x55] := by decide

theorem witness_OnlyFrameBytesAreSent :
    (after (step (facing (quiet 0x81 []) (busyIn .tx)))).map (·.txHist) = some [0x81] ∧
      (after (step (facing (quiet 0x81 []) (busyIn .gap)))).map (·.txHist) = some [] := by decide

/-- A micro-step that ends an operation and one that does not. -/
theorem witness_CompletionEventMarksTheEnd :
    (after (step (facing (quiet 0x81 []) (evalIn .getState .refA false 0x00)))).map (fun t => (t.irqCount, t.busy)) =
        some (1, false) ∧
      (evalIn .getState .refA false 0x00).busy = true ∧
      (after (step (facing (quiet 0x81 []) accepted))).map (·.irqCount) = some 0 := by decide

theorem witness_AddressChangeIsInvisibleWhileBusy :
    accepted.busy = true ∧ (quiet 0x81 []).rst = false ∧
      (after (step (withEnv accepted (quiet 0x81 [] :: [])))).isSome = true ∧
      (after (step (withEnv accepted ({ quiet 0x81 [] with devAddr := 0x12 } :: [])))).map (fun t => (t.devAddr, t.frame.b0)) =
        some (0x12, 0x81) := by decide

/-- One state for each condition of R200 that the FSM detects. -/
theorem witness_DetectedConditionsAreRecorded :
    (Instr.cmdState 0x81 0x69).wireFrame = some ⟨0x81, 0x16, 0x69⟩ ∧
      fsmDetects { busyIn .drain with sum := 0xFF } .chksumInvalid = true ∧
      fsmDetects (evalIn .th .main false 0x16) .busyCode = true ∧ fsmDetects (evalIn .pm .refA false 0x80) .gated = true ∧
      fsmDetects (evalIn .wake .refA false 0x00) .already = true ∧ (evalIn .sleep .refB true 0x00).chkErr = true ∧
      (evalIn .sleep .refB true 0x00).phase ≠ .main ∧
      [{ busyIn .drain with sum := 0xFF }, evalIn .th .main false 0x16, evalIn .pm .refA false 0x80,
        evalIn .wake .refA false 0x00, evalIn .sleep .refB true 0x00].all
          (fun s => (after (exec (.cmdState 0x81 0x69) s)).isSome) = true := by decide

/-! Witnesses: progress and runs. -/

/-- EVAL that ends an operation, EVAL that goes on to the next phase, and a micro-step outside EVAL. -/
theorem witness_PhasesOnlyAdvance :
    (nextSample (facing (quiet 0x81 []) (evalIn .sleep .refA false 0x00))).rst = false ∧
      (nextSample (facing (quiet 0x81 []) (evalIn .sleep .refA false 0x00))).hcmd = none ∧
      (after (step (facing (quiet 0x81 []) (evalIn .sleep .refA false 0x01)))).map (·.fsm) = some .idle ∧
      (after (step (facing (quiet 0x81 []) (evalIn .sleep .refA false 0x00)))).map (fun t => (t.fsm, t.phase)) =
        some (.tx, .main) ∧
      (after (step (facing (quiet 0x81 []) accepted))).map (·.phase) = some .refA := by decide

/-- The premises are those of `witness_inv_busy`; the bound of GETSTATE just accepted. -/
theorem witness_OperationsComplete : Inv accepted ∧ accepted.busy = true ∧ operationBound accepted = 27 :=
  ⟨witness_inv_busy.1, rfl, by decide⟩

theorem witness_ExchangeWaits :
    (accepted.fsm = .tx ∧ accepted.txi = 0 ∧ accepted.rxBuf = [] ∧ accepted.waitSel = .settle ∧
        accepted.drainEn = true) ∧
      (let s := { accepted with waitSel := .wake, drainEn := false }
       s.fsm = .tx ∧ s.txi = 0 ∧ s.rxBuf = [] ∧ s.waitSel = .wake ∧ s.drainEn = false) := by decide

theorem witness_DrainStoresTheResponse :
    ({ busyIn .drain with rxBuf := bad }).fsm = .drain ∧ ({ busyIn .drain with rxBuf := bad }).resp = [] ∧
      ({ busyIn .drain with rxBuf := bad }).respLen = 0 ∧ ({ busyIn .drain with rxBuf := bad }).sum = 0x00 ∧
      ({ busyIn .drain with rxBuf := bad }).rxBuf = bad ∧ validResponse bad = false ∧ validResponse pm15 = true := by
  decide

theorem witness_GetstateOperation : idle.busy = false ∧ idle.rxBuf = [] ∧ refreshCode bad = 0xFF := by decide

/-- The three paths of SLEEP: S01, then S00 with a valid and with an invalid toggle response. -/
theorem witness_SleepOperation :
    idle.busy = false ∧ idle.rxBuf = [] ∧ (refreshCode s01).getLsbD 0 = true ∧ (refreshCode s00).getLsbD 0 = false ∧
      validResponse s01 = true ∧ validResponse bad = false := by decide

theorem witness_WakeOperation :
    idle.busy = false ∧ idle.rxBuf = [] ∧ (refreshCode s00).getLsbD 0 = false ∧ (refreshCode s01).getLsbD 0 = true := by
  decide

/-- The four paths of PM: S80; S00 with BAD, with the busy response and with PM15. -/
theorem witness_PmOperation :
    idle.busy = false ∧ idle.rxBuf = [] ∧ refreshCode s80 &&& 0x85 ≠ 0 ∧ refreshCode s00 &&& 0x85 = 0 ∧
      validResponse bad = false ∧ (validResponse pmBusy16 = true ∧ responseByte pmBusy16 2 = 0x16) ∧
      validResponse pm15 = true ∧ responseByte pm15 2 ≠ 0x16 := by decide

/-- The four paths of TH: S10; S00 with BAD, with a valid response of state 0x16 and with TH8. -/
theorem witness_ThOperation :
    idle.busy = false ∧ idle.rxBuf = [] ∧ refreshCode s10 &&& 0x14 ≠ 0 ∧ refreshCode s00 &&& 0x14 = 0 ∧
      validResponse bad = false ∧ (validResponse pmBusy16 = true ∧ responseByte pmBusy16 2 = 0x16) ∧
      validResponse th8 = true ∧ responseByte th8 2 ≠ 0x16 := by decide

end Sys2Proof.Tests
end

section
/-! The rows of R171 without reset: which instruction a step finds, and that the step is its meaning on the sampled
state. -/

namespace Sys2Proof.Proofs

open Sys2Proof.Machine Sys2Proof.Laws

/-! Where a step finds its instruction (R171). -/

theorem source_port {p : Sample} {w : Byte} (h : p.hcmd = some w) (s : State) : source p s = .port w := by
  simp [source, h]

theorem source_exchange {p : Sample} {s : State} (h : p.hcmd = none) (hf : s.fsm ≠ .idle) :
    source p s = .exchange s.frame := by
  simp [source, h, hf]

theorem source_nothing {p : Sample} {s : State} (h : p.hcmd = none) (hf : s.fsm = .idle) : source p s = .nothing := by
  simp [source, h, hf]

/-- A source whose bytes decode to an instruction runs that instruction's meaning. -/
theorem runSource_of_decode {src : Source} {l : List Byte} {i : Instr} (hl : src.bytes = some l)
    (hi : decode l = .ok i) (s : State) : runSource src s = exec i s := by
  have hsrc : src.instr = some i := by simp [Source.instr, hl, hi, Except.toOption]
  simp [runSource, hsrc]

/-! The two halves of a step: the world's part and the row taken. -/

/-- Without reset a step runs the source found at the head of the micro-step. -/
theorem step_of_not_reset {s : State} (h : (nextSample s).rst = false) :
    step s = runSource (source (nextSample s) (sampled s)) (sampled s) := by
  simp [step, h]

/-- The sampled state in full: the ports, the receive buffer and the script move, the block's own state does not
(log 2, 3). -/
theorem sampled_eq (s : State) :
    sampled s =
      { s with
        devAddr := (nextSample s).devAddr, txReady := (nextSample s).txReady,
        rxBuf := s.rxBuf ++ (nextSample s).rxIn, env := s.env.tail,
        draws := if s.env.isEmpty then s.draws + 1 else s.draws } := by
  cases h : s.env <;> simp [sampled, advanceEnv, applySample, h]

/-- Settles O8: the step's source is fixed by the presentation and the control state, and runs what its bytes decode
to. -/
theorem stepRunsTheDecodedInstruction : Obligations.StepRunsTheDecodedInstruction := by
  intro s i hrst
  refine ⟨fun w hw hi => ?_, fun hnone hfsm hi => ?_, fun hnone hfsm => ?_, sampled_eq s⟩
  · rw [step_of_not_reset hrst, source_port hw]
    exact runSource_of_decode rfl hi _
  · rw [step_of_not_reset hrst, source_exchange hnone (by simpa using hfsm), sampled_frame]
    exact runSource_of_decode rfl hi _
  · rw [step_of_not_reset hrst, source_nothing hnone (by simpa using hfsm), runSource_nothing]

end Sys2Proof.Proofs
end

section
/-! The invariant: every operation that a step is made of keeps it, so every step does. -/

namespace Sys2Proof.Proofs

open Sys2Proof.Machine Sys2Proof.Safety Sys2Proof.Laws

/-! Operations that touch nothing the invariant reads, or one clause of it. -/

theorem inv_resetBlock (s : State) : Inv (resetBlock s) where
  memory := rfl
  length := Nat.zero_le _
  zeroFilled := fun _ _ => rfl
  accumulator := rfl
  verdict := fun _ => rfl
  busyIff := by simp [State.reset]
  doneIdle := fun _ => rfl
  doneOutcome := nofun
  possible := nofun
  built := nofun
  waits := nofun
  modeOff := fun _ => rfl
  sent := by simp [State.reset]
  drains := nofun
  forced := nofun

theorem inv_sampled {s : State} (h : Inv s) : Inv (sampled s) := by
  rw [sampled_eq]
  exact { h with }

theorem inv_raiseOverrun {s : State} (h : Inv s) : Inv (raiseOverrun s) := { h with }

theorem inv_raiseIllegal {s : State} (h : Inv s) : Inv (raiseIllegal s) := { h with }

theorem inv_popRx {s : State} (rest : List Byte) (h : Inv s) : Inv (popRx rest s) := { h with }

theorem inv_pmLatch {s : State} (m : Mode) (h : Inv s) : Inv (pmLatch m s) := { h with }

theorem inv_pmBusy {s : State} (h : Inv s) : Inv (pmBusy s) := { h with }

theorem inv_thLatch {s : State} (h : Inv s) : Inv (thLatch s) := { h with }

theorem inv_thBusy {s : State} (h : Inv s) : Inv (thBusy s) := { h with }

/-- decodeState forces the state exactly where it sets the report bit (R127). -/
theorem inv_decodeResp {s : State} (h : Inv s) : Inv (decodeResp s) :=
  { h with forced := fun (hc : s.chkErr = true) => by simp [decodedState, hc] }

/-! The end of an operation and the start of an exchange (R148, R149). -/

theorem inv_finish {s : State} {c : OutcomeCode} (h : Inv s) (hf : s.fsm = .eval) (hc : c ≠ .none) :
    Inv (finish c s) :=
  { h with
    verdict := fun _ => h.verdict (by simp [hf])
    busyIff := by simp
    doneIdle := nofun
    doneOutcome := fun _ => hc
    possible := nofun
    built := nofun
    waits := nofun
    sent := by simp
    drains := nofun }

/-- A state in which StartExchange may run: proper in everything it does not set. -/
structure ReadyToStart (s : State) : Prop where
  memory : s.resp.wf = true
  length : s.respLen.toNat ≤ Memory.size
  zeroFilled : ZeroFilled s
  accumulator : s.sum = s.resp.sumTo s.respLen.toNat
  verdict : s.chkErr = checksumVerdict s.sum
  busy : s.busy = true
  notDone : s.done = false
  modeOff : s.opL ≠ .pm → s.modeL = .off
  forced : s.reportChkInvalid = true → s.stateCode = forcedState

theorem readyToStart_of_eval {s : State} (h : Inv s) (hf : s.fsm = .eval) : ReadyToStart s :=
  have hb : s.busy = true := h.busyIff.2 (by simp [hf])
  { h with verdict := h.verdict (by simp [hf]), busy := hb, notDone := h.doneIdle hb }

/-- An accepted word leaves IDLE, where the verdict stands. -/
theorem readyToStart_latchWord {s : State} {op : HostOp} {m : Mode} (h : Inv s) (hb : s.busy = false)
    (hm : op ≠ .pm → m = .off) : ReadyToStart (latchWord op m s) :=
  have hf : s.fsm = .idle := by simpa [hb] using h.busyIff
  { h with verdict := h.verdict (by simp [hf]), busy := rfl, notDone := rfl, modeOff := hm }

theorem inv_loadExchange {s : State} {ph : Phase} {o : Byte} (h : ReadyToStart s)
    (ho : opc s.opL ph s.modeL = some o) (hp : possiblePhase s.opL ph = true) : Inv (loadExchange ph o s) :=
  { h with
    verdict := fun _ => h.verdict
    busyIff := by simp [h.busy]
    doneIdle := fun _ => h.notDone
    doneOutcome := fun hd => by simp [h.notDone] at hd
    possible := fun _ => hp
    built := fun _ => ⟨o, ho, rfl⟩
    waits := fun _ => ⟨rfl, rfl⟩
    sent := by simp
    drains := nofun }

/-! The channel micro-steps (R143 to R146). -/

theorem inv_txByte {s : State} (b : Byte) (h : Inv s) (hf : s.fsm = .tx) : Inv (txByte b s) :=
  { h with
    verdict := fun _ => h.verdict (by simp [hf])
    busyIff := by simp [h.busyIff, hf]
    sent := by simp
    drains := nofun }

theorem inv_nextByte {s : State} (h : Inv s) (hf : s.fsm = .gap) : Inv (nextByte s) :=
  { h with
    verdict := fun _ => h.verdict (by simp [hf])
    busyIff := by simp [h.busyIff, hf]
    sent := by simp
    drains := nofun }

theorem inv_enter_settle {s : State} (h : Inv s) (hf : s.fsm = .gap) (hi : ¬ s.txi.val < 2) : Inv (enter .settle s) :=
  { h with
    verdict := fun _ => h.verdict (by simp [hf])
    busyIff := by simp [h.busyIff, hf]
    sent := fun _ => show s.txi = 2 by omega
    drains := nofun }

theorem inv_enter_eval {s : State} (h : Inv s) (hf : s.fsm = .settle) : Inv (enter .eval s) :=
  { h with
    verdict := fun _ => h.verdict (by simp [hf])
    busyIff := by simp [h.busyIff, hf]
    sent := fun _ => h.sent (.inl hf)
    drains := nofun }

theorem inv_drainStart {s : State} (h : Inv s) (hf : s.fsm = .settle) (hd : s.drainEn = true) : Inv (drainStart s) :=
  { h with
    memory := rfl
    length := Nat.zero_le _
    zeroFilled := fun _ _ => rfl
    accumulator := rfl
    verdict := fun hne => absurd rfl hne
    busyIff := by simp [h.busyIff, hf]
    sent := fun _ => h.sent (.inl hf)
    drains := fun _ => hd }

theorem respLen_storeByte {s : State} {b : Byte} (hl : s.respLen.toNat < 16) :
    (storeByte b s).respLen.toNat = s.respLen.toNat + 1 := by
  rw [storeByte_respLen, BitVec.toNat_add]
  exact Nat.mod_eq_of_lt (by simp; omega)

/-- A stored byte extends the response and its sum by one (R106, R116). -/
theorem inv_storeByte {s : State} (b : Byte) (h : Inv s) (hf : s.fsm = .drain) (hl : s.respLen.toNat < 16) :
    Inv (storeByte b s) :=
  { h with
    memory := wf_write b h.memory hl
    length := by rw [respLen_storeByte hl]; exact hl
    zeroFilled := fun i hi => by
      rw [respLen_storeByte hl] at hi
      rw [storeByte_resp, read_write_other b (by omega)]
      exact h.zeroFilled i (by omega)
    accumulator := by
      rw [respLen_storeByte hl, storeByte_resp, storeByte_sum, Memory.sumTo, sumTo_write b (Nat.le_refl _),
        read_write_same b h.memory, h.accumulator]
    verdict := fun hne => absurd hf hne }

theorem inv_drainEnd {s : State} (h : Inv s) (hf : s.fsm = .drain) : Inv (drainEnd s) :=
  { h with
    verdict := fun _ => rfl
    busyIff := by simp [h.busyIff, hf]
    sent := fun _ => h.sent (.inr (.inl hf))
    drains := nofun }

/-! Whole micro-steps. -/

theorem inv_exchangeStep {f : Frame} {s t : State} (h : Inv s) (hs : exchangeStep f s = .next t)
    (he : s.fsm ≠ .eval) : Inv t := by
  obtain ⟨-, rfl⟩ | ⟨hf, -, rfl⟩ | ⟨-, -, rfl⟩ | ⟨hf, -, rfl⟩ | ⟨hf, hi, rfl⟩ | ⟨hf, hd, rfl⟩ | ⟨hf, -, rfl⟩ |
    ⟨hf, b, rest, -, hl, rfl⟩ | ⟨-, b, rest, -, -, rfl⟩ | ⟨hf, -, rfl⟩ := exchangeStep_cases hs he
  · exact h
  · exact inv_txByte _ h hf
  · exact h
  · exact inv_nextByte h hf
  · exact inv_enter_settle h hf hi
  · exact inv_drainStart h hf hd
  · exact inv_enter_eval h hf
  · exact inv_storeByte b (inv_popRx rest h) hf hl
  · exact inv_popRx rest h
  · exact inv_drainEnd h hf

/-- R93 gives a MAIN opcode exactly where R150 has a MAIN phase. -/
theorem possiblePhase_main {op : HostOp} {m : Mode} {o : Byte} (h : opc op .main m = some o) :
    possiblePhase op .main = true := by
  cases op
  case getState => cases h
  all_goals rfl

theorem inv_evalArm {s t : State} (h : Inv s) (hf : s.fsm = .eval) (hs : evalArm s = .next t) : Inv t := by
  have hd : Inv (decodeResp s) := inv_decodeResp h
  obtain ⟨c, hc, -, rfl⟩ | ⟨-, -, -, rfl⟩ | ⟨-, -, -, -, rfl⟩ | ⟨-, -, -, -, rfl⟩ | ⟨-, -, -, -, rfl⟩ |
    ⟨-, o, ho, rfl⟩ | ⟨-, hop, rfl⟩ | ⟨-, hop, -, -, rfl⟩ := evalArm_cases hs
  · exact inv_finish hd hf hc
  · exact inv_finish h hf nofun
  · exact inv_finish (inv_pmLatch _ hd) hf nofun
  · exact inv_finish (inv_thLatch hd) hf nofun
  · exact inv_finish (inv_thBusy hd) hf nofun
  · exact inv_loadExchange (readyToStart_of_eval hd hf) ho (possiblePhase_main ho)
  · refine inv_loadExchange (readyToStart_of_eval h hf) (opc_refB _ _) ?_
    obtain hop | hop := hop <;> rw [hop] <;> rfl
  · refine inv_loadExchange (readyToStart_of_eval (inv_pmBusy hd) hf) (opc_refB _ _) ?_
    simp [hop, possiblePhase]

/-- Settles O34: the invariant holds row by row of R171; the reset row needs nothing of the state before. -/
theorem stepKeepsTheStateProper : Obligations.StepKeepsTheStateProper := by
  intro s t hinv h
  have hs : Inv (sampled s) := inv_sampled hinv
  obtain ⟨-, rfl⟩ | ⟨-, w, -, hw⟩ | ⟨-, -, -, rfl⟩ | ⟨-, -, -, hx⟩ := step_cases h
  · exact inv_resetBlock _
  · obtain ⟨-, rfl⟩ | ⟨-, -, rfl⟩ | ⟨hb, i, op, m, -, -, hm, rfl⟩ := hw
    · exact inv_raiseOverrun hs
    · exact inv_raiseIllegal hs
    · exact inv_loadExchange (readyToStart_latchWord hs (by simpa using hb) hm) (opc_refA _ _) (by cases op <;> rfl)
  · exact hs
  · by_cases hf : (sampled s).fsm = .eval
    · exact inv_evalArm hs hf (by rwa [exchangeStep_eval hf] at hx)
    · exact inv_exchangeStep hs hx hf

/-- Settles O33. -/
theorem resetIsProper : Obligations.ResetIsProper := inv_resetBlock State.reset

end Sys2Proof.Proofs
end

section
/-! Frames: what a presentation, a channel micro-step and an EVAL arm leave unchanged (R47, R112, R190). -/

namespace Sys2Proof.Proofs

open Sys2Proof.Machine Sys2Proof.Safety Sys2Proof.Laws

theorem samePm_iff {s t : State} :
    SamePm s t ↔ (t.pm1Cnt = s.pm1Cnt ∧ t.pm1DenRaw = s.pm1DenRaw) ∧
      (t.pm25Cnt = s.pm25Cnt ∧ t.pm25DenRaw = s.pm25DenRaw) ∧ t.pm10Cnt = s.pm10Cnt ∧ t.pm10DenRaw = s.pm10DenRaw :=
  ⟨fun h => ⟨h.pm1, h.pm25, h.pm10⟩, fun ⟨h1, h25, h10⟩ => ⟨h1, h25, h10⟩⟩

/-! Host words. -/

/-- Settles O30: a dropped word only raises OVERRUN, an accepted one only latches and starts its exchange. -/
theorem hostWordFrame : Obligations.HostWordFrame := by
  intro i op m s t hop h
  rw [exec_hostWord hop] at h
  cases hb : s.busy with
  | true =>
    rw [acceptWord_busy hb] at h
    cases h
    simp [SameMeasurements, samePm_iff, SameTh, SameDecoded, SameResponse, SameChannel, SameWorld, SameLatches,
      SameExchange, hb]
  | false =>
    rw [acceptWord_free hb] at h
    cases h
    simp [SameMeasurements, samePm_iff, SameTh, SameDecoded, SameResponse, SameChannel, SameWorld]

/-! Channel micro-steps. -/

/-- What every micro-step of an exchange outside EVAL leaves unchanged. -/
structure ChannelKeeps (s t : State) : Prop where
  measurements : SameMeasurements s t
  decoded : SameDecoded s t
  completion : SameCompletion s t
  sticky : SameSticky s t
  latches : SameLatches s t
  exchange : SameExchange s t
  world : SameWorld s t

theorem exchangeStep_keeps {f : Frame} {s t : State} (h : exchangeStep f s = .next t) (he : s.fsm ≠ .eval) :
    ChannelKeeps s t := by
  obtain ⟨-, rfl⟩ | ⟨-, -, rfl⟩ | ⟨-, -, rfl⟩ | ⟨-, -, rfl⟩ | ⟨-, -, rfl⟩ | ⟨-, -, rfl⟩ | ⟨-, -, rfl⟩ |
    ⟨-, b, rest, -, -, rfl⟩ | ⟨-, b, rest, -, -, rfl⟩ | ⟨-, -, rfl⟩ := exchangeStep_cases h he
  all_goals
    constructor <;>
      simp [SameMeasurements, samePm_iff, SameTh, SameDecoded, SameCompletion, SameSticky, SameLatches, SameExchange,
        SameWorld]

/-- CHK_ERR is written where a drain finds nothing (R107, R117). -/
theorem exchangeStep_chkErr {f : Frame} {s t : State} (h : exchangeStep f s = .next t) (he : s.fsm ≠ .eval) :
    t.chkErr = if s.fsm = .drain ∧ s.rxBuf = [] then checksumVerdict s.sum else s.chkErr := by
  obtain ⟨hf, rfl⟩ | ⟨hf, -, rfl⟩ | ⟨hf, -, rfl⟩ | ⟨hf, -, rfl⟩ | ⟨hf, -, rfl⟩ | ⟨hf, -, rfl⟩ | ⟨hf, -, rfl⟩ |
    ⟨hf, b, rest, hb, -, rfl⟩ | ⟨hf, b, rest, hb, -, rfl⟩ | ⟨hf, hb, rfl⟩ := exchangeStep_cases h he
  all_goals simp [*]

/-- Settles O31: the control state says which of the channel's fields may change. -/
theorem channelMicroStepFrame : Obligations.ChannelMicroStepFrame := by
  intro i f s t hw he h
  rw [exec_wire hw] at h
  obtain ⟨hmeas, hdec, hcomp, hsticky, hlatch, hexch, hworld⟩ := exchangeStep_keeps h he
  refine ⟨hmeas, hdec, hcomp, hsticky, hlatch, hexch, hworld, ?_⟩
  obtain ⟨hf, rfl⟩ | ⟨hf, -, rfl⟩ | ⟨hf, -, rfl⟩ | ⟨hf, -, rfl⟩ | ⟨hf, -, rfl⟩ | ⟨hf, -, rfl⟩ | ⟨hf, -, rfl⟩ |
    ⟨hf, b, rest, -, -, rfl⟩ | ⟨hf, b, rest, -, -, rfl⟩ | ⟨hf, -, rfl⟩ := exchangeStep_cases h he
  all_goals simp +contextual [hf, SameResponse, read_write_other]

/-! EVAL arms. -/

/-- What every EVAL arm leaves unchanged. -/
structure EvalKeeps (s t : State) : Prop where
  response : SameResponse s t
  chkErr : t.chkErr = s.chkErr
  channel : SameChannel s t
  sticky : SameSticky s t
  latches : SameLatches s t
  world : SameWorld s t

theorem evalArm_keeps {s t : State} (h : evalArm s = .next t) : EvalKeeps s t := by
  obtain ⟨c, -, -, rfl⟩ | ⟨-, -, -, rfl⟩ | ⟨-, -, -, -, rfl⟩ | ⟨-, -, -, -, rfl⟩ | ⟨-, -, -, -, rfl⟩ |
    ⟨-, o, -, rfl⟩ | ⟨-, -, rfl⟩ | ⟨-, -, -, -, rfl⟩ := evalArm_cases h
  all_goals constructor <;> simp [SameResponse, SameChannel, SameSticky, SameLatches, SameWorld]

/-- An arm decodes the state of its response or leaves it (R127). -/
theorem evalArm_decoded {s t : State} (h : evalArm s = .next t) :
    SameDecoded s t ∨ t.stateCode = decodedState s.chkErr (respState s) ∧ t.reportChkInvalid = s.chkErr := by
  obtain ⟨c, -, -, rfl⟩ | ⟨-, -, -, rfl⟩ | ⟨-, -, -, -, rfl⟩ | ⟨-, -, -, -, rfl⟩ | ⟨-, -, -, -, rfl⟩ |
    ⟨-, o, -, rfl⟩ | ⟨-, -, rfl⟩ | ⟨-, -, -, -, rfl⟩ := evalArm_cases h
  case inr.inl | inr.inr.inr.inr.inr.inr.inl => exact .inl ⟨rfl, rfl⟩
  all_goals exact .inr ⟨rfl, rfl⟩

/-- The particulate words and MODE_CUR are written where PM's MAIN response is valid and not the busy code (R184). -/
theorem evalArm_pm {s t : State} (h : evalArm s = .next t) :
    (SamePm s t ∧ t.modeCur = s.modeCur) ∨
    (s.phase = .main ∧ s.opL = .pm ∧ s.chkErr = false ∧ isBusyCode (respState s) = false ∧
      t = finish .ok (pmLatch s.modeL (decodeResp s))) := by
  obtain ⟨c, -, -, rfl⟩ | ⟨-, -, -, rfl⟩ | hlatch | ⟨-, -, -, -, rfl⟩ | ⟨-, -, -, -, rfl⟩ |
    ⟨-, o, -, rfl⟩ | ⟨-, -, rfl⟩ | ⟨-, -, -, -, rfl⟩ := evalArm_cases h
  case inr.inr.inl => exact .inr hlatch
  all_goals left; simp [samePm_iff]

/-- T_RAW and H_RAW are written where TH's MAIN response is valid and not the busy code (R185). -/
theorem evalArm_th {s t : State} (h : evalArm s = .next t) :
    SameTh s t ∨
    (s.phase = .main ∧ s.opL = .th ∧ s.chkErr = false ∧ isBusyCode (respState s) = false ∧
      t = finish .ok (thLatch (decodeResp s))) := by
  obtain ⟨c, -, -, rfl⟩ | ⟨-, -, -, rfl⟩ | ⟨-, -, -, -, rfl⟩ | hlatch | ⟨-, -, -, -, rfl⟩ |
    ⟨-, o, -, rfl⟩ | ⟨-, -, rfl⟩ | ⟨-, -, -, -, rfl⟩ := evalArm_cases h
  case inr.inr.inr.inl => exact .inr hlatch
  all_goals left; simp [SameTh]

/-- NO_MEAS is the busy test of a valid measurement response (R27). -/
theorem evalArm_noMeas {s t : State} (h : evalArm s = .next t) :
    t.noMeas =
      if (s.opL = .pm ∨ s.opL = .th) ∧ s.phase = .main ∧ s.chkErr = false then isBusyCode (respState s)
      else s.noMeas := by
  obtain ⟨c, -, hp, rfl⟩ | ⟨-, -, hc, rfl⟩ | ⟨hp, ho, hc, hb, rfl⟩ | ⟨hp, ho, hc, hb, rfl⟩ | ⟨hp, ho, hc, hb, rfl⟩ |
    ⟨hp, o, -, rfl⟩ | ⟨hp, ho, rfl⟩ | ⟨hp, ho, hc, hb, rfl⟩ := evalArm_cases h
  · obtain hp | ⟨ho, -⟩ := hp
    · simp [hp]
    · simp [ho]
  · simp [hc]
  · simp [hp, ho, hc, hb]
  · simp [hp, ho, hc, hb]
  · simp [hp, ho, hc, hb]
  · simp [hp]
  · obtain ho | ho := ho <;> simp [ho]
  · simp [hp, ho, hc, hb]

/-- Settles O32: the measurement words change where their latch runs only. -/
theorem evalFrame : Obligations.EvalFrame := by
  intro i f s t hw hf h
  rw [exec_wire hw, exchangeStep_eval hf] at h
  obtain ⟨hresp, hchk, hchan, hsticky, hlatch, hworld⟩ := evalArm_keeps h
  refine ⟨hresp, hchk, hchan, hsticky, hlatch, hworld, fun hne => ?_, fun hne => ?_, fun hne => ?_⟩
  · obtain hsame | ⟨hp, ho, -⟩ := evalArm_pm h
    · exact hsame
    · simp [hp, ho] at hne
  · obtain hsame | ⟨hp, ho, -⟩ := evalArm_th h
    · exact hsame
    · simp [hp, ho] at hne
  · rw [evalArm_noMeas h, if_neg]
    rintro ⟨ho, hp, -⟩
    obtain ⟨hpm, hth⟩ | hmain := hne
    · exact ho.elim hpm hth
    · exact hmain hp

end Sys2Proof.Proofs
end

section
/-! Who writes what: a step writes a field where a row of R171 that may write it is taken (R47). -/

namespace Sys2Proof.Proofs

open Sys2Proof.Machine Sys2Proof.Safety Sys2Proof.Laws

/-! The world's part of a step is invisible to the relations between the block's own state before and after it. -/

@[simp] theorem samePm_sampled {s t : State} : SamePm (sampled s) t ↔ SamePm s t := by simp [samePm_iff]

@[simp] theorem sameTh_sampled {s t : State} : SameTh (sampled s) t ↔ SameTh s t := by simp [SameTh]

@[simp] theorem sameMeasurements_sampled {s t : State} : SameMeasurements (sampled s) t ↔ SameMeasurements s t := by
  simp [SameMeasurements]

@[simp] theorem sameDecoded_sampled {s t : State} : SameDecoded (sampled s) t ↔ SameDecoded s t := by
  simp [SameDecoded]

@[simp] theorem sameSticky_sampled {s t : State} : SameSticky (sampled s) t ↔ SameSticky s t := by simp [SameSticky]

@[simp] theorem sameLatches_sampled {s t : State} : SameLatches (sampled s) t ↔ SameLatches s t := by
  simp [SameLatches]

@[simp] theorem respState_sampled (s : State) : respState (sampled s) = s.resp.read 2 := by
  simp [respState, stateIdx]

/-! The rows of R171, one inversion for every field. -/

/-- What a presentation makes of the state at the head of its step (R140 to R142). -/
inductive Presented (s : State) : State → Prop where
  | dropped : s.busy = true → Presented s (raiseOverrun s)
  | refused : s.busy = false → Presented s (raiseIllegal s)
  | accepted (op : HostOp) (m : Mode) : s.busy = false →
      Presented s (loadExchange .refA opcState (latchWord op m s))

/-- The row a step takes. IDLE without a presentation counts as a micro-step outside EVAL. -/
inductive Row (s : State) : State → Prop where
  | reset : (nextSample s).rst = true → Row s (resetBlock (sampled s))
  | port (w : Byte) {t : State} : (nextSample s).rst = false → (nextSample s).hcmd = some w → Presented (sampled s) t →
      Row s t
  | channel {t : State} : (nextSample s).rst = false → (nextSample s).hcmd = none → s.fsm ≠ .eval →
      exchangeStep s.frame (sampled s) = .next t → Row s t
  | eval {t : State} : (nextSample s).rst = false → (nextSample s).hcmd = none → s.fsm = .eval →
      evalArm (sampled s) = .next t → Row s t

theorem step_row {s t : State} (h : step s = .next t) : Row s t := by
  obtain ⟨hr, rfl⟩ | ⟨hr, w, hw, hp⟩ | ⟨hr, hw, hf, rfl⟩ | ⟨hr, hw, -, hx⟩ := step_cases h
  · exact .reset hr
  · refine .port w hr hw ?_
    obtain ⟨hb, rfl⟩ | ⟨hb, -, rfl⟩ | ⟨hb, i, op, m, -, -, -, rfl⟩ := hp
    · exact .dropped (by simpa using hb)
    · exact .refused (by simpa using hb)
    · exact .accepted op m (by simpa using hb)
  · exact .channel hr hw (by simp [hf]) (exchangeStep_idle (by simpa using hf))
  · by_cases hf : s.fsm = .eval
    · exact .eval hr hw hf (by rwa [exchangeStep_eval (by simpa using hf)] at hx)
    · exact .channel hr hw hf hx

/-- What a presentation leaves unchanged, whatever becomes of it. -/
structure PortKeeps (s t : State) : Prop where
  measurements : SameMeasurements s t
  decoded : SameDecoded s t
  chkErr : t.chkErr = s.chkErr

theorem presented_keeps {s t : State} (h : Presented s t) : PortKeeps s t := by
  cases h
  all_goals constructor <;> simp [SameMeasurements, samePm_iff, SameTh, SameDecoded]

/-! The fields, one after the other. -/

/-- Settles O37: a presentation may only raise the two bits, and the FSM leaves them. -/
theorem stickyBitsStay : Obligations.StickyBitsStay := by
  intro s t h hr
  have of_same (hs : SameSticky (sampled s) t) :
      (s.illegal = true → t.illegal = true) ∧ (s.overrun = true → t.overrun = true) := by
    obtain ⟨hi, ho⟩ := sameSticky_sampled.1 hs
    simp [hi, ho]
  cases step_row h with
  | reset hr' => simp [hr] at hr'
  | port w _ _ hp => cases hp <;> simp +contextual
  | channel _ _ hf hx => exact of_same (exchangeStep_keeps hx (by simpa using hf)).sticky
  | eval _ _ _ hx => exact of_same (evalArm_keeps hx).sticky

/-- Settles O38: only the micro-step of a drain that finds nothing writes the verdict. -/
theorem chkErrIsWrittenAtDrainEndOnly : Obligations.ChkErrIsWrittenAtDrainEndOnly := by
  intro s t h
  cases step_row h with
  | reset hr => simp [hr, State.reset]
  | port w hr hw hp => simp [hr, hw, (presented_keeps hp).chkErr]
  | channel hr hw hf hx =>
    simp [hr, hw, exchangeStep_chkErr hx (by simpa using hf), checksumVerdict]
  | eval hr hw hf hx => simp [hr, hf, (evalArm_keeps hx).chkErr]

/-- Settles O39: outside EVAL both stay, and an arm that writes them decodes its response. -/
theorem stateCodeIsWrittenByDecodeOnly : Obligations.StateCodeIsWrittenByDecodeOnly := by
  intro s t h hne
  cases step_row h with
  | reset hr => exact .inl hr
  | port w _ _ hp => exact absurd (sameDecoded_sampled.1 (presented_keeps hp).decoded) hne
  | channel _ _ hf hx =>
    exact absurd (sameDecoded_sampled.1 (exchangeStep_keeps hx (by simpa using hf)).decoded) hne
  | eval _ _ hf hx =>
    obtain hsame | ⟨hcode, hrep⟩ := evalArm_decoded hx
    · exact absurd (sameDecoded_sampled.1 hsame) hne
    · exact .inr ⟨hf, by simpa [decodedState, forcedState] using hcode, by simpa using hrep⟩

/-- Settles O40: outside EVAL every measurement register stays, and an arm that writes one is the latch. -/
theorem measurementsAreWrittenByLatchOnly : Obligations.MeasurementsAreWrittenByLatchOnly := by
  intro s t h
  have of_same (hs : SameMeasurements s t) : (SamePm s t ∧ t.modeCur = s.modeCur) ∧ SameTh s t := by
    obtain ⟨hpm, hth, hmode, -⟩ := hs
    exact ⟨⟨hpm, hmode⟩, hth⟩
  cases step_row h with
  | reset hr => exact ⟨fun _ => .inl hr, fun _ => .inl hr⟩
  | port w _ _ hp =>
    obtain ⟨hpm, hth⟩ := of_same (sameMeasurements_sampled.1 (presented_keeps hp).measurements)
    exact ⟨fun hne => absurd hpm hne, fun hne => absurd hth hne⟩
  | channel _ _ hf hx =>
    obtain ⟨hpm, hth⟩ :=
      of_same (sameMeasurements_sampled.1 (exchangeStep_keeps hx (by simpa using hf)).measurements)
    exact ⟨fun hne => absurd hpm hne, fun hne => absurd hth hne⟩
  | eval _ _ hf hx =>
    refine ⟨fun hne => .inr ?_, fun hne => .inr ?_⟩
    · obtain hsame | ⟨hp, ho, hc, hb, rfl⟩ := evalArm_pm hx
      · exact absurd (by simpa using hsame) hne
      · have hbyte : s.resp.read 2 ≠ 0x16 := by simpa [isBusyCode_eq] using hb
        exact ⟨hf, by simpa using ho, by simpa using hp, by simpa using hc, hbyte, by simp⟩
    · obtain hsame | ⟨hp, ho, hc, hb, rfl⟩ := evalArm_th hx
      · exact absurd (by simpa using hsame) hne
      · have hbyte : s.resp.read 2 ≠ 0x16 := by simpa [isBusyCode_eq] using hb
        exact ⟨hf, by simpa using ho, by simpa using hp, by simpa using hc, hbyte, by simp⟩

/-- Settles O41: only a MAIN arm of PM or TH with a valid response writes NO_MEAS. -/
theorem noMeasFollowsTheBusyTest : Obligations.NoMeasFollowsTheBusyTest := by
  intro s t h
  cases step_row h with
  | reset hr => simp [hr, State.reset]
  | port w hr hw hp =>
    obtain ⟨-, -, -, hsame⟩ := (presented_keeps hp).measurements
    simp [hr, hw, hsame]
  | channel hr hw hf hx =>
    obtain ⟨-, -, -, hsame⟩ := (exchangeStep_keeps hx (by simpa using hf)).measurements
    simp [hr, hf, hsame]
  | eval hr hw hf hx => simp [hr, hw, hf, evalArm_noMeas hx, isBusyCode_eq]

/-- Settles O42: the accepted word is the only row without reset that writes a latch. -/
theorem latchesHoldDuringAnOperation : Obligations.LatchesHoldDuringAnOperation := by
  intro s t h hne
  cases step_row h with
  | reset hr => exact .inl hr
  | port w _ hw hp =>
    cases hp with
    | dropped _ => exact absurd (by simp [SameLatches]) hne
    | refused _ => exact absurd (by simp [SameLatches]) hne
    | accepted op m hb => exact .inr ⟨by simp [hw], by simpa using hb, by simp⟩
  | channel _ _ hf hx =>
    exact absurd (sameLatches_sampled.1 (exchangeStep_keeps hx (by simpa using hf)).latches) hne
  | eval _ _ _ hx => exact absurd (sameLatches_sampled.1 (evalArm_keeps hx).latches) hne

end Sys2Proof.Proofs
end

section
/-! The level of the port `dev_addr` is read where a word is accepted and nowhere else (R39, R241). -/

namespace Sys2Proof.Proofs

open Sys2Proof.Machine Sys2Proof.Safety Sys2Proof.Laws

/-- `s` with another level of the port `dev_addr`. -/
def withDevAddr (d : Byte) (s : State) : State := { s with devAddr := d }

/-- The answer with `g` applied to its next state. -/
def mapNext (g : State → State) : Answer → Answer
  | .next s => .next (g s)
  | .fault r => .fault r
  | .refused r => .refused r

theorem mapNext_next (g : State → State) : mapNext g (.next s) = .next (g s) := rfl

theorem mapNext_ite (g : State → State) (c : Prop) [Decidable c] (a b : Answer) :
    mapNext g (if c then a else b) = if c then mapNext g a else mapNext g b := apply_ite _ _ _ _

section

variable (d : Byte) (s : State)

/-- StartExchange reads the latches, not the port (R95). -/
theorem startExchange_withDevAddr (ph : Phase) :
    startExchange ph (withDevAddr d s) = mapNext (withDevAddr d) (startExchange ph s) := by
  have hopc : opc (withDevAddr d s).opL ph (withDevAddr d s).modeL = opc s.opL ph s.modeL := rfl
  unfold startExchange
  rw [hopc]
  cases opc s.opL ph s.modeL <;> rfl

/-- An arm's tests read the latches and the response; its branches end or start an exchange. -/
theorem evalArm_withDevAddr : evalArm (withDevAddr d s) = mapNext (withDevAddr d) (evalArm s) := by
  have hop : (withDevAddr d s).opL = s.opL := rfl
  have hph : (withDevAddr d s).phase = s.phase := rfl
  cases ho : s.opL <;> cases hp : s.phase
  all_goals
    simp only [evalArm, hop, hph, ho, hp, evalGetState, evalSleepRefA, evalSleepMain, evalSleepRefB, evalWakeRefA,
      evalWakeMain, evalWakeRefB, evalPmRefA, evalPmMain, evalPmRefB, evalThRefA, evalThMain, mapNext_ite,
      ← startExchange_withDevAddr] <;>
    rfl

variable {d s} {t : State}

/-- No micro-step of an exchange reads the port. -/
theorem exchangeStep_withDevAddr {f : Frame} (h : exchangeStep f s = .next t) :
    exchangeStep f (withDevAddr d s) = .next (withDevAddr d t) := by
  by_cases he : s.fsm = .eval
  · rw [exchangeStep_eval he] at h
    rw [exchangeStep_eval (s := withDevAddr d s) he, evalArm_withDevAddr, h, mapNext_next]
  obtain ⟨hf, rfl⟩ | ⟨hf, hr, rfl⟩ | ⟨hf, hr, rfl⟩ | ⟨hf, hi, rfl⟩ | ⟨hf, hi, rfl⟩ | ⟨hf, hd, rfl⟩ | ⟨hf, hd, rfl⟩ |
    ⟨hf, b, rest, hb, hl, rfl⟩ | ⟨hf, b, rest, hb, hl, rfl⟩ | ⟨hf, hb, rfl⟩ := exchangeStep_cases h he
  · exact exchangeStep_idle hf
  · exact exchangeStep_tx hf hr
  · exact exchangeStep_tx_stall hf hr
  · exact exchangeStep_gap_more hf hi
  · exact exchangeStep_gap_last hf hi
  · exact exchangeStep_settle hf hd
  · exact exchangeStep_settle_toggle hf hd
  · exact exchangeStep_drain_store hf hb hl
  · exact exchangeStep_drain_discard hf hb hl
  · exact exchangeStep_drain_end hf hb

/-- While BUSY a presented word is dropped, so its address is not latched. -/
theorem runSource_withDevAddr {src : Source} (hb : s.busy = true) (h : runSource src s = .next t) :
    runSource src (withDevAddr d s) = .next (withDevAddr d t) := by
  cases src with
  | port w =>
    rw [runSource_port_busy hb] at h
    cases h
    exact runSource_port_busy hb
  | exchange f =>
    rw [runSource_exchange] at h ⊢
    exact exchangeStep_withDevAddr h
  | nothing =>
    cases h
    rfl

end

/-- Settles O47: the two steps take the same source, on states that differ only in the port. -/
theorem addressChangeIsInvisibleWhileBusy : Obligations.AddressChangeIsInvisibleWhileBusy := by
  intro s t p rest d hb h hr
  rw [step_of_not_reset (s := withEnv s (p :: rest)) hr, nextSample_withEnv, sampled_withEnv] at h
  have hstep : step (withEnv s ({ p with devAddr := d } :: rest)) =
      runSource (source p (applySample p (withEnv s rest))) (withDevAddr d (applySample p (withEnv s rest))) :=
    step_of_not_reset hr
  rw [hstep]
  exact runSource_withDevAddr hb h

end Sys2Proof.Proofs
end

section
/-! The state after reset and the packing of STATUS (R22, R45). -/

namespace Sys2Proof.Proofs

open Sys2Proof.Machine Sys2Proof.Safety Sys2Proof.Laws

/-- A reset gives every row of the table its value, whatever was in progress. -/
theorem atReset_resetBlock (s : State) : AtReset (resetBlock s) where
  stateCode := rfl
  chkErr := rfl
  noMeas := rfl
  reportChkInvalid := rfl
  modeCur := rfl
  status := ⟨rfl, rfl, rfl, rfl⟩
  outcome := rfl
  pm1 := ⟨rfl, rfl⟩
  pm25 := ⟨rfl, rfl⟩
  pm10 := ⟨rfl, rfl⟩
  th := ⟨rfl, rfl⟩
  resp := fun _ => rfl
  respLen := rfl
  fsm := rfl
  phase := rfl
  latches := ⟨rfl, rfl, rfl⟩
  frame := ⟨rfl, rfl⟩
  waits := ⟨rfl, rfl⟩
  sum := rfl

/-- Settles O6. -/
theorem resetHoldsEveryTableValue : Obligations.ResetHoldsEveryTableValue :=
  ⟨atReset_resetBlock State.reset, by decide⟩

theorem rdData_zero (s : State) : rdData s 0x00 = statusWord s := rfl

/-- Settles O26: a bit of the concatenation is a bit of the piece it falls in; the fields are compared bit by bit. -/
theorem statusWordLayout : Obligations.StatusWordLayout := by
  intro s
  rw [rdData_zero]
  refine ⟨?_, ?_, ?_, ?_, ?_, ?_, ?_, ?_, ?_, ?_, ?_, ?_⟩
  case refine_9 | refine_10 | refine_11 =>
    refine BitVec.eq_of_getLsbD_eq fun i hi => ?_
    rw [BitVec.getLsbD_extractLsb']
    interval_cases i <;> simp only [statusWord, BitVec.getLsbD_append] <;> simp
  all_goals simp only [statusWord, BitVec.getLsbD_append]; simp

end Sys2Proof.Proofs
end

section
/-! The two histories of the channel: what a step does to the receive buffer and to the bytes sent (R65, R109, R232). -/

namespace Sys2Proof.Proofs

open Sys2Proof.Machine Sys2Proof.Safety Sys2Proof.Laws

/-- A presentation, whatever becomes of it, neither sends nor consumes a byte. -/
theorem presented_channel {s t : State} (h : Presented s t) : SameChannel s t := by
  cases h
  all_goals simp [SameChannel]

/-- A micro-step outside EVAL takes nothing from the receive buffer, or in DRAIN its oldest byte (R106, R116). -/
theorem exchangeStep_rxBuf {f : Frame} {s t : State} (h : exchangeStep f s = .next t) (he : s.fsm ≠ .eval) :
    t.rxBuf = s.rxBuf ∨ s.fsm = .drain ∧ ∃ b, b :: t.rxBuf = s.rxBuf := by
  obtain ⟨-, rfl⟩ | ⟨-, -, rfl⟩ | ⟨-, -, rfl⟩ | ⟨-, -, rfl⟩ | ⟨-, -, rfl⟩ | ⟨-, -, rfl⟩ | ⟨-, -, rfl⟩ |
    ⟨hf, b, rest, hb, -, rfl⟩ | ⟨hf, b, rest, hb, -, rfl⟩ | ⟨-, -, rfl⟩ := exchangeStep_cases h he
  all_goals simp [*]

/-- A micro-step outside EVAL sends nothing, or in TX with the transport ready the byte that `txi` names (R101, R143). -/
theorem exchangeStep_txHist {f : Frame} {s t : State} (h : exchangeStep f s = .next t) (he : s.fsm ≠ .eval) :
    t.txHist = s.txHist ∨
      s.fsm = .tx ∧ s.txReady = true ∧ t.txHist = s.txHist ++ [frameByte f s.txi] := by
  obtain ⟨-, rfl⟩ | ⟨hf, hr, rfl⟩ | ⟨-, -, rfl⟩ | ⟨-, -, rfl⟩ | ⟨-, -, rfl⟩ | ⟨-, -, rfl⟩ | ⟨-, -, rfl⟩ |
    ⟨-, b, rest, -, -, rfl⟩ | ⟨-, b, rest, -, -, rfl⟩ | ⟨-, -, rfl⟩ := exchangeStep_cases h he
  case inr.inl => exact .inr ⟨hf, hr, by simp⟩
  all_goals left; simp

theorem frameByte_eq (f : Frame) (k : Fin 3) :
    frameByte f k = if k = 0 then f.b0 else if k = 1 then f.b1 else f.b2 := by
  fin_cases k <;> rfl

/-- Settles O44: of the four rows only a micro-step of DRAIN takes a byte out. -/
theorem receivedBytesAreOnlyDrained : Obligations.ReceivedBytesAreOnlyDrained := by
  intro s t h
  rw [← sampled_rxBuf]
  cases step_row h with
  | reset _ => exact .inl (resetBlock_rxBuf _)
  | port w _ _ hp => exact .inl (presented_channel hp).2
  | channel _ _ hf hx => simpa using exchangeStep_rxBuf hx (by simpa using hf)
  | eval _ _ _ hx => exact .inl (evalArm_keeps hx).channel.2

/-- Settles O45: of the four rows only a micro-step of TX with the transport ready sends. -/
theorem onlyFrameBytesAreSent : Obligations.OnlyFrameBytesAreSent := by
  intro s t h
  rw [← frameByte_eq, ← sampled_txHist s]
  cases step_row h with
  | reset _ => exact .inl (resetBlock_txHist _)
  | port w _ _ hp => exact .inl (presented_channel hp).1
  | channel _ _ hf hx => simpa using exchangeStep_txHist hx (by simpa using hf)
  | eval _ _ _ hx => exact .inl (evalArm_keeps hx).channel.1

end Sys2Proof.Proofs
end

section
/-! The two encodings: the fields of a host word, which words and frames decode, and that decoding and encoding undo
each other (R70 to R75, R87). -/

namespace Sys2Proof.Proofs

open Sys2Proof.Machine Sys2Proof.Safety Sys2Proof.Laws

/-! The fields of a host word (R70). -/

/-- A word without reserved bits is the word of its two fields. -/
theorem hostWord_fields {w : Byte} (h : hostReserved w = 0) : hostWord (hostOp w) (hostMode w) = w := by
  revert w; decide

/-! Host words and wire commands (R72, R75). -/

/-- An instruction is a host word or a wire command. -/
theorem hostOperation_or_wireFrame (i : Instr) :
    (∃ op m, hostOperation i = some (op, m)) ∨ ∃ f, i.wireFrame = some f := by
  cases i <;> simp [hostOperation, Instr.wireFrame]

/-- Only PM has a mode. -/
theorem mode_off_of_ne_pm {i : Instr} {op : HostOp} {m : Mode} (h : hostOperation i = some (op, m)) (hop : op ≠ .pm) :
    m = .off := by
  cases i <;> simp_all [hostOperation]

theorem hostOperation_pmWord (m : Mode) : hostOperation (.pmWord m) = some (.pm, m) := by cases m <;> rfl

/-- A host word encodes as the word of its operation and mode. -/
theorem encode_of_hostOperation {i : Instr} {op : HostOp} {m : Mode} (h : hostOperation i = some (op, m)) :
    encode i = [hostWord (opNumber op) m.code] := by
  cases i <;> cases h <;> rfl

/-- The word of an operation and its mode decodes to the instruction. -/
theorem decodeHost_hostWord {i : Instr} {op : HostOp} {m : Mode} (h : hostOperation i = some (op, m)) :
    decodeHost (hostWord (opNumber op) m.code) = .ok i := by
  cases i <;> cases h <;> rfl

theorem opNumber_range (op : HostOp) : opNumber op ≠ 0 ∧ (opNumber op).toNat ≤ 5 := by cases op <;> decide

/-- A word whose OP allows no MODE decodes only with MODE 0. -/
theorem fields_of_plainHostWord {w : Byte} {i j : Instr} {op : HostOp} (hi : hostOperation i = some (op, .off))
    (hop : hostOp w = opNumber op) (h : plainHostWord w i = .ok j) :
    ∃ op m, hostOperation j = some (op, m) ∧ hostOp w = opNumber op ∧ hostMode w = m.code := by
  unfold plainHostWord at h
  split at h
  · next hm => cases h; exact ⟨op, .off, hi, hop, hm⟩
  · cases h

/-- What a decoded host word holds: no reserved bits, and the operation and mode of its instruction as its fields. -/
theorem fields_of_decodeHost {w : Byte} {i : Instr} (h : decodeHost w = .ok i) :
    hostReserved w = 0 ∧
      ∃ op m, hostOperation i = some (op, m) ∧ hostOp w = opNumber op ∧ hostMode w = m.code := by
  unfold decodeHost at h
  split at h
  · cases h
  next hr =>
  refine ⟨not_not.mp hr, ?_⟩
  split at h
  · next hop => exact fields_of_plainHostWord (op := .getState) rfl hop h
  split at h
  · next hop => exact fields_of_plainHostWord (op := .sleep) rfl hop h
  split at h
  · next hop => exact fields_of_plainHostWord (op := .wake) rfl hop h
  split at h
  · next hop => cases h; exact ⟨.pm, _, hostOperation_pmWord _, hop, (code_ofCode _).symm⟩
  split at h
  · next hop => exact fields_of_plainHostWord (op := .th) rfl hop h
  · cases h

/-- A byte decodes to an instruction exactly where it is the word of the instruction's operation and mode. -/
theorem decodeHost_eq_ok_iff {w : Byte} {i : Instr} :
    decodeHost w = .ok i ↔ ∃ op m, hostOperation i = some (op, m) ∧ w = hostWord (opNumber op) m.code := by
  constructor
  · intro h
    obtain ⟨hr, op, m, hi, hop, hm⟩ := fields_of_decodeHost h
    exact ⟨op, m, hi, by rw [← hop, ← hm, hostWord_fields hr]⟩
  · rintro ⟨op, m, hi, rfl⟩
    exact decodeHost_hostWord hi

/-- Bytes that decode are a host word or a frame (R85). -/
theorem decode_cases {l : List Byte} {i : Instr} (h : decode l = .ok i) :
    (∃ w, l = [w] ∧ decodeHost w = .ok i) ∨ ∃ f : Frame, l = f.bytes ∧ decodeWire f = .ok i := by
  unfold decode at h
  split at h
  · next w => exact .inl ⟨w, rfl, h⟩
  · next a o c => exact .inr ⟨⟨a, o, c⟩, rfl, h⟩
  · cases h

/-- Every instruction decodes from its encoding, a wire command with a wrong checksum byte too. -/
theorem decode_encode (i : Instr) : decode (encode i) = .ok i := by
  obtain ⟨op, m, h⟩ | ⟨f, h⟩ := hostOperation_or_wireFrame i
  · rw [encode_of_hostOperation h, decode_single, decodeHost_hostWord h]
  · rw [encode_of_wireFrame h, decode_bytes, decodeWire_wireFrame h]

/-- Bytes that decode are the encoding of what they decode to. -/
theorem encode_of_decode {l : List Byte} {i : Instr} (h : decode l = .ok i) : encode i = l := by
  obtain ⟨w, rfl, hw⟩ | ⟨f, rfl, hf⟩ := decode_cases h
  · obtain ⟨op, m, hi, rfl⟩ := decodeHost_eq_ok_iff.mp hw
    exact encode_of_hostOperation hi
  · exact encode_of_wireFrame (wireFrame_of_decodeWire hf)

/-- Settles O1: host words and frames apart, each encoding undoes its decoder. -/
theorem decodeEncodeAgree : Obligations.DecodeEncodeAgree :=
  ⟨fun i _ => decode_encode i, fun _ _ => encode_of_decode⟩

/-- Settles O2: a legal word is the word of its operation and mode, and each reason of illegality contradicts one of its
three fields. -/
theorem legalHostWordsAreTheEight : Obligations.LegalHostWordsAreTheEight := by
  refine ⟨⟨decode_encode .getstate, decode_encode .sleep, decode_encode .wake, decode_encode .pmOff,
    decode_encode .pmFast, decode_encode .pmMedium, decode_encode .pmSlow, decode_encode .th⟩, ?legal, ?refused⟩
  case legal =>
    rintro w ⟨i, h⟩
    obtain ⟨op, m, hi, rfl⟩ := decodeHost_eq_ok_iff.mp h
    cases i <;> cases hi <;> decide
  case refused =>
    intro w hw i h
    obtain ⟨hr, op, m, hi, hop, hm⟩ := fields_of_decodeHost h
    obtain ⟨hpos, hle⟩ := opNumber_range op
    obtain hres | ⟨hmode, hne⟩ | hzero | hbig := hw
    · exact hres hr
    · have hpm : op ≠ .pm := by rintro rfl; exact hne hop
      rw [mode_off_of_ne_pm hi hpm] at hm
      exact hmode hm
    · exact hpos (hop.symm.trans hzero)
    · rw [← hop] at hle
      exact absurd hle (Nat.not_le.mpr hbig)

/-- Settles O3: the decoder asks for the opcodes of R75 one after the other and reads no other byte. -/
theorem frameDecodesByItsOpcode : Obligations.FrameDecodesByItsOpcode :=
  fun a o c => decode_bytes ⟨a, o, c⟩

/-- Settles O4: each is the encoding of its instruction. -/
theorem spelledWordsDecode : Obligations.SpelledWordsDecode :=
  ⟨decode_encode .wake, decode_encode .pmSlow, decode_encode (.cmdState 0x81 0x69),
    decode_encode (.cmdToggle 0x81 0x6A), decode_encode (.cmdPmOff 0x81 0x7F)⟩

end Sys2Proof.Proofs
end

section
/-! A word presented while BUSY = 0, the whole next state (R140, R141, R148). -/

namespace Sys2Proof.Proofs

open Sys2Proof.Machine Sys2Proof.Safety Sys2Proof.Laws

@[simp] theorem waitSelOf_refA (op : HostOp) : waitSelOf op .refA = .settle := by cases op <;> rfl

@[simp] theorem drainEnOf_refA (op : HostOp) : drainEnOf op .refA = true := by cases op <;> rfl

/-- Acceptance in full: the latches and the exchange of the opening refresh. -/
theorem loadExchange_latchWord (op : HostOp) (m : Mode) (s : State) :
    loadExchange .refA opcState (latchWord op m s) =
      { s with
        opL := op, modeL := m, addrL := s.devAddr, busy := true, done := false, phase := .refA,
        frame := ⟨s.devAddr, 0x16, chk s.devAddr 0x16⟩, txi := 0, waitSel := .settle, drainEn := true,
        fsm := .tx } := by
  simp [loadExchange, latchWord, buildCommand, opcState]

/-- A presentation is the step's source. -/
theorem step_of_presented {s : State} {w : Byte} (hr : (nextSample s).rst = false)
    (hw : (nextSample s).hcmd = some w) : step s = runSource (.port w) (sampled s) := by
  rw [step_of_not_reset hr, source_port hw]

/-- Settles O9: the word's fields are those of its operation, which the step latches and starts. -/
theorem legalWordIsAccepted : Obligations.LegalWordIsAccepted := by
  intro s w i hr hw hb hi
  obtain ⟨-, op, m, ho, hop, hm⟩ := fields_of_decodeHost hi
  refine ⟨op, m, ho, hop.symm, hm.symm, ?_⟩
  rw [step_of_presented hr hw, runSource_port_legal (by simpa using hb) hi ho]
  exact congrArg Host.Outcome.next (loadExchange_latchWord op m (sampled s))

/-- Settles O12: a word that does not decode is refused with an error, and raises ILLEGAL alone. -/
theorem illegalWordOnlySetsIllegal : Obligations.IllegalWordOnlySetsIllegal := by
  intro s w hr hw hb hi
  cases hd : decodeHost w with
  | ok i => exact absurd hd (hi i)
  | error e =>
    rw [step_of_presented hr hw]
    exact runSource_port_illegal (by simpa using hb) hd

end Sys2Proof.Proofs
end

section
/-! The read port (R21, R36, R76). -/

namespace Sys2Proof.Proofs

open Sys2Proof.Machine Sys2Proof.Laws

/-- From 0x0E on the read port knows RESP and reserved indexes only. -/
theorem readRegister_of_ge (s : State) {n : Nat} (h : 0x0E ≤ n) :
    readRegister s n = if 0x10 ≤ n ∧ n ≤ 0x1F then (s.resp.read (n - 0x10)).setWidth 16 else 0x0000 := by
  obtain ⟨k, rfl⟩ := Nat.exists_eq_add_of_le' h
  rfl

/-- Settles O27: the named indexes by the table, the others by the two ranges above it. -/
theorem readPortMap : Obligations.ReadPortMap := by
  refine fun s => ⟨⟨rfl, rfl, rfl, rfl, rfl, rfl, rfl, rfl, rfl, rfl, rfl, rfl, rfl, rfl⟩, fun k hlo hhi => ?_,
    fun k hk => ?_⟩
  · rw [rdData, readRegister_of_ge s (by omega), if_pos ⟨hlo, hhi⟩]
  · have hk' : k.toNat = 0x0E ∨ k.toNat = 0x0F ∨ 0x20 ≤ k.toNat := by
      obtain rfl | rfl | h := hk
      · exact .inl rfl
      · exact .inr (.inl rfl)
      · exact .inr (.inr h)
    rw [rdData, readRegister_of_ge s (by omega), if_neg (by omega)]

end Sys2Proof.Proofs
end

section
/-! The command builder: the checksum byte of R91 and the sum of the frames it closes (R92). -/

namespace Sys2Proof.Proofs

open Sys2Proof.Machine Sys2Proof.Safety

section

variable (a o : Byte)

/-- R91's difference is the negated 8-bit sum; its spellings and its corners follow from this form. -/
theorem chk_eq_neg : chk a o = -(a + o) := by
  rw [chk]
  ring

theorem chk_toNat : (chk a o).toNat = (256 - (a.toNat + o.toNat) % 256) % 256 := by
  rw [chk_eq_neg, BitVec.toNat_neg, BitVec.toNat_add]

/-- The checksum byte brings the 8-bit sum of its frame to 0. -/
theorem add_chk : a + o + chk a o = 0 := by
  rw [chk_eq_neg]
  exact BitVec.add_right_neg _

theorem chk_eq_zero_iff : chk a o = 0x00 ↔ (a.toNat + o.toNat) % 256 = 0 := by
  rw [← BitVec.toNat_inj, chk_toNat, show (0x00 : Byte).toNat = 0 from rfl]
  omega

theorem validResponse_buildCommand : validResponse (buildCommand a o).bytes = true := by
  have hsum : byteSum [a, o, chk a o] = a + o + chk a o := by simp [byteSum, BitVec.add_assoc]
  simp [validResponse, stored, buildCommand, Frame.bytes, hsum, add_chk]

end

/-- Settles O5: the integer spellings are read off the byte's value, the complement off its negated form. -/
theorem checksumMakesFramesSumToZero : Obligations.ChecksumMakesFramesSumToZero := by
  refine ⟨fun a o => ?_, by decide, by decide⟩
  have hval := chk_toNat a o
  exact ⟨by omega, hval, by rw [chk_eq_neg, BitVec.neg_eq_not_add]; rfl, chk_eq_zero_iff a o, rfl, by omega,
    validResponse_buildCommand a o⟩

end Sys2Proof.Proofs
end

section
/-! The EVAL arms in the statements' own terms, and the refreshes of PM (R127, R148, R149, R155). -/

namespace Sys2Proof.Proofs

open Sys2Proof.Machine Sys2Proof.Safety Sys2Proof.Laws

/-- A wire command in EVAL is the arm of its operation and phase, whatever its opcode (R147). -/
theorem exec_eval {i : Instr} {f : Frame} {s : State} (hw : i.wireFrame = some f) (hf : s.fsm = .eval) :
    exec i s = evalArm s := by
  rw [exec_wire hw, exchangeStep_eval hf]

/-! What the arms are made of. -/

theorem decodeResp_eq_afterRefresh (s : State) : decodeResp s = afterRefresh s := rfl

theorem afterRefresh_stateCode (s : State) : (afterRefresh s).stateCode = refreshByte s := rfl

theorem finish_eq_afterFinish (c : OutcomeCode) (s : State) : finish c s = afterFinish c s := rfl

/-- Every exchange but the wake toggle takes the short wait and drains (R148). -/
theorem loadExchange_eq_afterStart {ph : Phase} {s : State} (h : isWakeToggle s.opL ph = false) (o : Byte) :
    loadExchange ph o s = afterStart ph o s := by
  simp [loadExchange, afterStart, waitSelOf, drainEnOf, buildCommand, h]

/-- The MAIN exchange of an operation that has one and is not WAKE. -/
theorem startExchange_main_eq_afterStart {s : State} {o : Byte} (h : opc s.opL .main s.modeL = some o)
    (hw : s.opL ≠ .wake) : startExchange .main s = .next (afterStart .main o s) := by
  rw [startExchange_main h, loadExchange_eq_afterStart (by simp [isWakeToggle, hw])]

/-! PM. -/

theorem evalPmRefA_gated {s : State} (h : refreshByte s &&& 0x85 ≠ 0) :
    evalPmRefA s = .next (afterFinish .gated (afterRefresh s)) := by
  have hgate : gatePm (refreshByte s) = true := by rw [gatePm_eq]; exact bne_iff_ne.mpr h
  simp [evalPmRefA, decodeResp_eq_afterRefresh, afterRefresh_stateCode, hgate, finish_eq_afterFinish]

theorem evalPmRefA_open {s : State} (ho : s.opL = .pm) (h : refreshByte s &&& 0x85 = 0) :
    evalPmRefA s = .next (afterStart .main (opcPm s.modeL) (afterRefresh s)) := by
  have hop : (afterRefresh s).opL = .pm := ho
  have hopc : opc (afterRefresh s).opL .main (afterRefresh s).modeL = some (opcPm s.modeL) := by rw [hop]; rfl
  have hgate : gatePm (refreshByte s) = false := by rw [gatePm_eq, h]; rfl
  simp [evalPmRefA, decodeResp_eq_afterRefresh, afterRefresh_stateCode, hgate,
    startExchange_main_eq_afterStart hopc, hop]

/-- Settles O21: the gate on the refreshed state decides between the two ends of REF_A, and REF_B has one. -/
theorem pmRefreshArms : Obligations.PmRefreshArms := by
  intro a c s hf ho
  rw [exec_eval rfl hf]
  refine ⟨fun hp hg => ?_, fun hp hg => ?_, fun hp => ?_⟩
  · rw [evalArm_pmRefA ho hp, evalPmRefA_gated hg]
  · rw [evalArm_pmRefA ho hp, evalPmRefA_open ho hg]
    cases s.modeL <;> rfl
  · rw [evalArm_pmRefB ho hp]
    rfl

end Sys2Proof.Proofs
end

section
/-! Stops: an EVAL arm stops exactly at the pairs that R150 marks as impossible, and nothing else does (R93, R201). -/

namespace Sys2Proof.Proofs

open Sys2Proof.Machine Sys2Proof.Safety Sys2Proof.Laws

theorem possiblePhase_eq_false_iff {op : HostOp} {ph : Phase} :
    possiblePhase op ph = false ↔ (op = .getState ∧ ph ≠ .refA) ∨ (op = .th ∧ ph = .refB) := by
  cases op <;> cases ph <;> decide

/-! EVAL. -/

theorem evalArm_impossible {s : State} (h : possiblePhase s.opL s.phase = false) :
    evalArm s = .fault .noSuchPhase := by
  obtain ⟨ho, hp⟩ | ⟨ho, hp⟩ := possiblePhase_eq_false_iff.mp h
  · cases hph : s.phase
    case refA => exact absurd hph hp
    all_goals simp [evalArm, ho, hph]
  · simp [evalArm, ho, hp]

/-- The one fault of StartExchange is out of reach: only GETSTATE has no MAIN opcode (R93). -/
theorem startExchange_main_answers {s : State} (h : s.opL ≠ .getState) : ∃ t, startExchange .main s = .next t := by
  obtain ⟨o, ho⟩ := opc_main_of_ne s.modeL h
  exact ⟨_, startExchange_main ho⟩

theorem ite_answers {c : Prop} [Decidable c] {x y : Answer} (hx : ∃ t, x = .next t) (hy : ∃ t, y = .next t) :
    ∃ t, (if c then x else y) = .next t := by
  split
  · exact hx
  · exact hy

/-- At every other pair an arm ends the operation or starts an exchange that has an opcode. -/
theorem evalArm_possible {s : State} (h : possiblePhase s.opL s.phase = true) : ∃ t, evalArm s = .next t := by
  have hmain (hne : s.opL ≠ .getState) : ∃ t, startExchange .main (decodeResp s) = .next t :=
    startExchange_main_answers (s := decodeResp s) hne
  cases ho : s.opL <;> cases hp : s.phase
  case getState.main | getState.refB | th.refB => simp [ho, hp, possiblePhase] at h
  case getState.refA => exact ⟨_, evalArm_getState ho hp⟩
  case sleep.refA => rw [evalArm_sleepRefA ho hp]; exact ite_answers ⟨_, rfl⟩ (hmain (by simp [ho]))
  case sleep.main => rw [evalArm_sleepMain ho hp]; exact ite_answers ⟨_, startExchange_refB _⟩ ⟨_, rfl⟩
  case sleep.refB => exact ⟨_, evalArm_sleepRefB ho hp⟩
  case wake.refA => rw [evalArm_wakeRefA ho hp]; exact ite_answers (hmain (by simp [ho])) ⟨_, rfl⟩
  case wake.main => rw [evalArm_wakeMain ho hp]; exact ⟨_, startExchange_refB _⟩
  case wake.refB => exact ⟨_, evalArm_wakeRefB ho hp⟩
  case pm.refA => rw [evalArm_pmRefA ho hp]; exact ite_answers ⟨_, rfl⟩ (hmain (by simp [ho]))
  case pm.main =>
    rw [evalArm_pmMain ho hp]
    exact ite_answers ⟨_, rfl⟩ (ite_answers ⟨_, startExchange_refB _⟩ ⟨_, rfl⟩)
  case pm.refB => exact ⟨_, evalArm_pmRefB ho hp⟩
  case th.refA => rw [evalArm_thRefA ho hp]; exact ite_answers ⟨_, rfl⟩ (hmain (by simp [ho]))
  case th.main => rw [evalArm_thMain ho hp]; exact ite_answers ⟨_, rfl⟩ (ite_answers ⟨_, rfl⟩ ⟨_, rfl⟩)

theorem evalArm_fault_iff {s : State} :
    evalArm s = .fault .noSuchPhase ↔ possiblePhase s.opL s.phase = false := by
  refine ⟨fun h => ?_, evalArm_impossible⟩
  rw [← Bool.not_eq_true]
  intro hposs
  obtain ⟨t, ht⟩ := evalArm_possible hposs
  rw [ht] at h
  cases h

/-! The other micro-steps, presentations and whole steps. -/

theorem exchangeStep_answers {f : Frame} {s : State} (he : s.fsm ≠ .eval) : ∃ t, exchangeStep f s = .next t := by
  cases hf : s.fsm
  case eval => exact absurd hf he
  all_goals simp [exchangeStep, hf]

theorem runSource_port_answers (w : Byte) (s : State) : ∃ t, runSource (.port w) s = .next t := by
  cases hb : s.busy with
  | true => exact ⟨_, runSource_port_busy hb⟩
  | false =>
    cases hw : decodeHost w with
    | error e => exact ⟨_, runSource_port_illegal hb hw⟩
    | ok i =>
      obtain ⟨op, m, ho, -⟩ := hostOperation_of_decodeHost hw
      exact ⟨_, runSource_port_legal hb hw ho⟩

/-- A step has a next state or is an EVAL at an impossible pair. -/
theorem step_answers_or_stops (s : State) :
    (∃ t, step s = .next t) ∨
    (step s = .fault .noSuchPhase ∧ s.fsm = .eval ∧ possiblePhase s.opL s.phase = false) := by
  cases hr : (nextSample s).rst with
  | true => exact .inl ⟨_, if_pos hr⟩
  | false =>
    rw [step_of_not_reset hr]
    cases source (nextSample s) (sampled s) with
    | port w => exact .inl (runSource_port_answers w _)
    | nothing => exact .inl ⟨_, runSource_nothing _⟩
    | exchange f =>
      rw [runSource_exchange]
      by_cases he : (sampled s).fsm = .eval
      · rw [exchangeStep_eval he]
        cases hp : possiblePhase s.opL s.phase with
        | true => exact .inl (evalArm_possible (by simpa using hp))
        | false => exact .inr ⟨evalArm_impossible (by simpa using hp), by simpa using he, rfl⟩
      · exact .inl (exchangeStep_answers he)

/-- Settles O36: the pairs without an arm are those R150 marks, and every other row of R171 has a next state. -/
theorem onlyImpossiblePairsStop : Obligations.OnlyImpossiblePairsStop := by
  refine ⟨fun i f s hw hf => ?_, fun s => ?_⟩
  · rw [exec_eval hw hf, evalArm_fault_iff, possiblePhase_eq_false_iff]
  · obtain ⟨t, ht⟩ | ⟨ht, hf, hp⟩ := step_answers_or_stops s
    · simp [ht]
    · rw [ht]
      refine ⟨nofun, fun r hr => ?_⟩
      cases hr
      exact ⟨rfl, hf, possiblePhase_eq_false_iff.mp hp⟩

end Sys2Proof.Proofs
end

section
/-! The micro-steps of DRAIN, and who writes the response buffer (R105 to R107, R112). -/

namespace Sys2Proof.Proofs

open Sys2Proof.Machine Sys2Proof.Safety Sys2Proof.Laws

/-- Settles O16: below the cap the byte is written behind the stored ones, at the cap it only leaves the receive
buffer. -/
theorem drainConsumesOneByte : Obligations.DrainConsumesOneByte := by
  intro i f s b rest hw hf hm hb
  rw [exec_wire hw]
  refine ⟨fun hl => ⟨_, exchangeStep_drain_store hf hb hl, read_write_same b hm, fun a ha => read_write_other b ha,
    BitVec.toNat_add _ _, respLen_storeByte hl, rfl⟩, fun hl => exchangeStep_drain_discard hf hb hl⟩

/-- Settles O17. -/
theorem drainEndValidates : Obligations.DrainEndValidates := by
  intro i f s hw hf hb
  have hv : checksumVerdict s.sum = if s.sum ≠ 0x00 then true else false := by
    by_cases h0 : s.sum = 0#8 <;> simp [checksumVerdict, h0]
  rw [exec_wire hw, exchangeStep_drain_end hf hb, drainEnd, hv]

/-- RESP and RESP_LEN are written where a drain starts and where it finds a byte (R105, R106). -/
theorem exchangeStep_resp {f : Frame} {s t : State} (h : exchangeStep f s = .next t) (he : s.fsm ≠ .eval) :
    (t.resp = s.resp ∧ t.respLen = s.respLen) ∨ (s.fsm = .settle ∧ s.drainEn = true) ∨
      (s.fsm = .drain ∧ s.rxBuf ≠ []) := by
  obtain ⟨-, rfl⟩ | ⟨-, -, rfl⟩ | ⟨-, -, rfl⟩ | ⟨-, -, rfl⟩ | ⟨-, -, rfl⟩ | ⟨hf, hd, rfl⟩ | ⟨-, -, rfl⟩ |
    ⟨hf, b, rest, hb, -, rfl⟩ | ⟨hf, b, rest, hb, -, rfl⟩ | ⟨-, -, rfl⟩ := exchangeStep_cases h he
  all_goals simp [*]

/-- A presentation, whatever becomes of it, leaves the response buffer. -/
theorem presented_response {s t : State} (h : Presented s t) : SameResponse s t := by
  cases h
  all_goals simp [SameResponse]

/-- Settles O43: of the four rows a presentation and an EVAL arm leave the response buffer. -/
theorem respChangesOnlyInDrains : Obligations.RespChangesOnlyInDrains := by
  intro s t h hne
  cases step_row h with
  | reset hr => exact .inl hr
  | port w _ _ hp =>
    obtain ⟨hresp, hlen, -⟩ := presented_response hp
    exact absurd ⟨by simpa using hresp, by simpa using hlen⟩ hne
  | channel _ hw hf hx =>
    obtain ⟨hresp, hlen⟩ | hdrain := exchangeStep_resp hx (by simpa using hf)
    · exact absurd (by simp [hresp, hlen]) hne
    · exact .inr ⟨hw, by simpa using hdrain⟩
  | eval _ _ _ hx =>
    obtain ⟨hresp, hlen, -⟩ := (evalArm_keeps hx).response
    exact absurd ⟨by simpa using hresp, by simpa using hlen⟩ hne

end Sys2Proof.Proofs
end

section
/-! Runs under scripts that a reader can put together: one step under one sample, runs after each other, and the least time
they take (R104, R110). -/

namespace Sys2Proof.Proofs

open Sys2Proof.Machine Sys2Proof.Safety Sys2Proof.Laws

/-- Under the script `l`, whatever follows it, `s` runs to `t`, and the least times of the steps add up to `ms`. -/
inductive RunsTo : State → List Sample → Nat → State → Prop where
  | refl (s : State) : RunsTo s [] 0 s
  | cons {s t u : State} {p : Sample} {l : List Sample} {v w : Nat} :
      (∀ rest, step (withEnv s (p :: rest)) = .next (withEnv t rest)) →
      (∀ rest, stepWaitMs (withEnv s (p :: rest)) = v) → RunsTo t l w u → RunsTo s (p :: l) (v + w) u

section

variable {s t u : State} {l l' : List Sample} {v w : Nat}

theorem RunsTo.run (h : RunsTo s l w t) (rest : List Sample) :
    Sys2Proof.core.run l.length (withEnv s (l ++ rest)) = .next (withEnv t rest) := by
  induction h with
  | refl s => rfl
  | cons hs _ _ ih => rw [List.cons_append, List.length_cons, run_succ (hs _), ih]

theorem RunsTo.waits (h : RunsTo s l w t) (rest : List Sample) : runWaitMs l.length (withEnv s (l ++ rest)) = w := by
  induction h with
  | refl s => rfl
  | cons hs hv _ ih => simp only [List.cons_append, List.length_cons, runWaitMs, hs, hv, ih]

theorem RunsTo.runScript_eq (h : RunsTo s l w t) : runScript (withEnv s l) = .next (withEnv t []) := by
  have hrun := h.run []
  rwa [List.append_nil] at hrun

/-- Two runs after each other are one. -/
theorem RunsTo.trans (h : RunsTo s l v t) (h' : RunsTo t l' w u) : RunsTo s (l ++ l') (v + w) u := by
  induction h with
  | refl s => simpa using h'
  | cons hs hv _ ih => rw [Nat.add_assoc]; exact .cons hs hv (ih h')

end

/-- One micro-step of an exchange under a sample that leaves the block alone. -/
theorem runsTo_quiet {s t : State} {d : Byte} {rx : List Byte} (hf : s.fsm ≠ .idle)
    (hx : ∀ rest, exchangeStep s.frame (withEnv (applySample (quiet d rx) s) rest) = .next (withEnv t rest)) :
    RunsTo s [quiet d rx] (minWaitMs s) t := by
  refine .cons (w := 0) (fun rest => (step_quiet hf d rx rest).trans (hx rest)) (fun rest => ?_) (.refl t)
  have hsrc : source (quiet d rx) (applySample (quiet d rx) (withEnv s rest)) = .exchange s.frame :=
    source_exchange rfl hf
  unfold stepWaitMs
  rw [nextSample_withEnv, sampled_withEnv, hsrc]
  rfl

/-- The presentation of a legal word while BUSY = 0; it waits for nothing. -/
theorem runsTo_presents {s : State} {w : Byte} {i : Instr} {op : HostOp} {m : Mode} (hb : s.busy = false)
    (hw : decodeHost w = .ok i) (ho : hostOperation i = some (op, m)) (d : Byte) :
    RunsTo s [presents d w] 0 (loadExchange .refA opcState (latchWord op m (applySample (presents d w) s))) :=
  .cons (v := 0) (step_presents hb hw ho d) (fun _ => rfl) (.refl _)

/-! The micro-steps of an exchange (R143 to R146). -/

section

variable {s : State} (d : Byte) (rx : List Byte)

theorem runsTo_tx (hf : s.fsm = .tx) :
    RunsTo s [quiet d rx] 0 (txByte (frameByte s.frame s.txi) (applySample (quiet d rx) s)) := by
  have hw : minWaitMs s = 0 := by simp [minWaitMs, hf]
  exact hw ▸ runsTo_quiet (by simp [hf]) fun _ => exchangeStep_tx hf rfl

theorem runsTo_gap_more (hf : s.fsm = .gap) (hi : s.txi.val < 2) :
    RunsTo s [quiet d rx] 1 (nextByte (applySample (quiet d rx) s)) := by
  have hw : minWaitMs s = 1 := by simp [minWaitMs, hf, Config.tByteMs]
  exact hw ▸ runsTo_quiet (by simp [hf]) fun _ => exchangeStep_gap_more hf hi

theorem runsTo_gap_last (hf : s.fsm = .gap) (hi : ¬ s.txi.val < 2) :
    RunsTo s [quiet d rx] 1 (enter .settle (applySample (quiet d rx) s)) := by
  have hw : minWaitMs s = 1 := by simp [minWaitMs, hf, Config.tByteMs]
  exact hw ▸ runsTo_quiet (by simp [hf]) fun _ => exchangeStep_gap_last hf hi

theorem runsTo_settle (hf : s.fsm = .settle) (hs : s.waitSel = .settle) (hd : s.drainEn = true) :
    RunsTo s [quiet d rx] 350 (drainStart (applySample (quiet d rx) s)) := by
  have hw : minWaitMs s = 350 := by simp [minWaitMs, hf, hs, Config.tSettleMs]
  exact hw ▸ runsTo_quiet (by simp [hf]) fun _ => exchangeStep_settle hf hd

theorem runsTo_settle_toggle (hf : s.fsm = .settle) (hs : s.waitSel = .wake) (hd : s.drainEn = false) :
    RunsTo s [quiet d rx] 1000 (enter .eval (applySample (quiet d rx) s)) := by
  have hw : minWaitMs s = 1000 := by simp [minWaitMs, hf, hs, Config.tWakeMs]
  exact hw ▸ runsTo_quiet (by simp [hf]) fun _ => exchangeStep_settle_toggle hf hd

theorem runsTo_drain {u : State} (hf : s.fsm = .drain)
    (hx : ∀ rest, exchangeStep s.frame (withEnv (applySample (quiet d rx) s) rest) = .next (withEnv u rest)) :
    RunsTo s [quiet d rx] 0 u := by
  have hw : minWaitMs s = 0 := by simp [minWaitMs, hf]
  exact hw ▸ runsTo_quiet (by simp [hf]) hx

theorem runsTo_eval {u : State} (hf : s.fsm = .eval)
    (hx : ∀ rest, evalArm (withEnv (applySample (quiet d rx) s) rest) = .next (withEnv u rest)) :
    RunsTo s [quiet d rx] 0 u := by
  have hw : minWaitMs s = 0 := by simp [minWaitMs, hf]
  exact hw ▸ runsTo_quiet (by simp [hf]) fun rest => by rw [← hx rest]; exact exchangeStep_eval hf

end

end Sys2Proof.Proofs
end

section
/-! The response a drain stores, as a function of the bytes it has found (R106, R107, R114, R118). -/

namespace Sys2Proof.Proofs

open Sys2Proof.Machine Sys2Proof.Safety Sys2Proof.Laws

/-! The stored part of the bytes found so far, one byte more. -/

section

variable {p : List Byte} (b : Byte)

theorem stored_of_le (h : p.length ≤ 16) : stored p = p := List.take_of_length_le h

theorem stored_append_below (h : p.length < 16) : stored (p ++ [b]) = p ++ [b] :=
  stored_of_le (by simpa using h)

theorem stored_append_beyond (h : 16 ≤ p.length) : stored (p ++ [b]) = stored p := List.take_append_of_le_length h

theorem length_stored (l : List Byte) : (stored l).length = min 16 l.length := List.length_take

theorem byteSum_append (l : List Byte) : byteSum (l ++ [b]) = byteSum l + b := by
  induction l with
  | nil => simp [byteSum]
  | cons a l ih =>
    have hcons (l : List Byte) : byteSum (a :: l) = a + byteSum l := rfl
    rw [List.cons_append, hcons, hcons, ih, BitVec.add_assoc]

end

/-- RESP after a drain has found the bytes `l`: the stored ones from address 0 on. -/
def responseMemory (l : List Byte) : Memory := (stored l).zipIdx.foldl (fun m c => m.write c.2 c.1) []

section

variable {p : List Byte} (b : Byte)

theorem responseMemory_append_below (h : p.length < 16) :
    responseMemory (p ++ [b]) = (responseMemory p).write p.length b := by
  simp [responseMemory, stored_append_below b h, stored_of_le h.le, List.zipIdx_append]

theorem responseMemory_append_beyond (h : 16 ≤ p.length) : responseMemory (p ++ [b]) = responseMemory p := by
  simp [responseMemory, stored_append_beyond b h]

end

theorem wf_responseMemory (l : List Byte) : (responseMemory l).wf = true := by
  induction l using List.reverseRecOn with
  | nil => rfl
  | append_singleton p b ih =>
    obtain h | h := Nat.lt_or_ge p.length 16
    · rw [responseMemory_append_below b h]
      exact wf_write b ih h
    · rwa [responseMemory_append_beyond b h]

/-- Every byte of RESP is the response's, 0x00 beyond its end (R52). -/
@[simp] theorem read_responseMemory (l : List Byte) (i : Nat) : (responseMemory l).read i = responseByte l i := by
  induction l using List.reverseRecOn with
  | nil => rfl
  | append_singleton p b ih =>
    obtain h | h := Nat.lt_or_ge p.length 16
    · rw [responseMemory_append_below b h, responseByte, stored_append_below b h]
      by_cases hi : i = p.length
      · rw [hi, read_write_same b (wf_responseMemory p)]
        simp
      · rw [read_write_other b hi, ih, responseByte, stored_of_le h.le]
        obtain hlt | hgt := Nat.lt_or_gt_of_ne hi
        · rw [List.getD_append _ _ _ _ hlt]
        · rw [List.getD_eq_default _ _ hgt.le, List.getD_eq_default _ _ (by simpa using hgt)]
    · rw [responseMemory_append_beyond b h, ih, responseByte, responseByte, stored_append_beyond b h]

/-- `s` with the response buffer of a drain that has found the bytes `l`. -/
def holding (l : List Byte) (s : State) : State :=
  { s with resp := responseMemory l, respLen := BitVec.ofNat 5 (stored l).length, sum := byteSum (stored l) }

theorem toNat_respLen_holding (l : List Byte) (s : State) : (holding l s).respLen.toNat = (stored l).length := by
  have : (stored l).length < 2 ^ 5 := by rw [length_stored]; omega
  exact BitVec.toNat_ofNat _ _ ▸ Nat.mod_eq_of_lt this

/-- A drain begins with nothing found (R105). -/
theorem drainStart_eq_holding (s : State) : drainStart s = holding [] (enter .drain s) := rfl

theorem storeByte_holding {p : List Byte} (b : Byte) (h : p.length < 16) (s : State) :
    storeByte b (holding p s) = holding (p ++ [b]) s := by
  have hlen : (BitVec.ofNat 5 p.length).toNat = p.length := Nat.mod_eq_of_lt (by omega)
  simp [storeByte, holding, responseMemory_append_below b h, stored_append_below b h, stored_of_le h.le, hlen,
    byteSum_append, BitVec.ofNat_add]

theorem holding_append_beyond {p : List Byte} (b : Byte) (h : 16 ≤ p.length) (s : State) :
    holding (p ++ [b]) s = holding p s := by
  simp only [holding, responseMemory_append_beyond b h, stored_append_beyond b h]

/-- The micro-step of DRAIN on a byte: it is found, whether it is stored or not (R106). -/
theorem exchangeStep_holding {f : Frame} {s : State} {b : Byte} {rest : List Byte} (p : List Byte) (hf : s.fsm = .drain)
    (hb : s.rxBuf = b :: rest) : exchangeStep f (holding p s) = .next (holding (p ++ [b]) (popRx rest s)) := by
  have hlen : (holding p s).respLen.toNat = min 16 p.length := by rw [toNat_respLen_holding, length_stored]
  obtain h | h := Nat.lt_or_ge p.length 16
  · rw [exchangeStep_drain_store (s := holding p s) hf hb (by omega), ← storeByte_holding b h]
    rfl
  · rw [exchangeStep_drain_discard (s := holding p s) hf hb (by omega), holding_append_beyond b h]
    rfl

/-- `s` at the end of a drain that has found the bytes `l` (R107). -/
def drained (l : List Byte) (s : State) : State := drainEnd (holding l s)

@[simp] theorem drained_chkErr (l : List Byte) (s : State) : (drained l s).chkErr = !validResponse l := rfl

@[simp] theorem toNat_respLen_drained (l : List Byte) (s : State) :
    (drained l s).respLen.toNat = (stored l).length := toNat_respLen_holding l s

/-- A drain in progress finds what the receive buffer holds, one byte per micro-step, and ends. -/
theorem runsTo_drained (d : Byte) {s : State} {l : List Byte} (p : List Byte) (hf : s.fsm = .drain)
    (hl : s.rxBuf = l) :
    RunsTo (holding p s) (List.replicate (l.length + 1) (quiet d [])) 0
      (drained (p ++ l) (popRx [] (applySample (quiet d []) s))) := by
  induction l generalizing p s with
  | nil =>
    have hpop : popRx [] (applySample (quiet d []) s) = applySample (quiet d []) s := by
      simp [popRx, applySample, quiet, hl]
    rw [List.append_nil, hpop]
    exact runsTo_drain d [] hf fun rest => exchangeStep_drain_end hf (by simp [withEnv, holding, quiet, hl])
  | cons b l ih =>
    have hstep : RunsTo (holding p s) [quiet d []] 0 (holding (p ++ [b]) (popRx l (applySample (quiet d []) s))) :=
      runsTo_drain d [] hf fun rest =>
        exchangeStep_holding (s := withEnv (applySample (quiet d []) s) rest) p hf (by simp [withEnv, quiet, hl])
    have hrun := hstep.trans (ih (s := popRx l (applySample (quiet d []) s)) (p ++ [b]) hf rfl)
    rwa [List.append_assoc] at hrun


/-! A whole drain as a run (R114). -/

/-- Settles O52: the drain's micro-steps store what the closed form of the response says. -/
theorem drainStoresTheResponse : Obligations.DrainStoresTheResponse := by
  intro s d l hf hresp hlen hsum hl
  have hs : holding [] s = s := by
    change { s with resp := [], respLen := 0, sum := 0x00 } = s
    rw [← hresp, ← hlen, ← hsum]
  have hrun := (runsTo_drained d [] hf hl).runScript_eq
  rw [hs, List.nil_append] at hrun
  refine ⟨_, hrun, rfl, fun i _ => read_responseMemory l i,
    (toNat_respLen_drained l (popRx [] (applySample (quiet d []) s))).trans (length_stored l), rfl, rfl, rfl, rfl, ?_⟩
  simp [withEnv, drained, holding, SameMeasurements, samePm_iff, SameTh, SameDecoded, SameCompletion, SameSticky,
    SameLatches, SameExchange]

end Sys2Proof.Proofs
end

section
/-! Whole exchanges up to their EVAL as runs: the frame, the wait, the drain (R143 to R146, R243). -/

namespace Sys2Proof.Proofs

open Sys2Proof.Machine Sys2Proof.Safety Sys2Proof.Laws

/-- `s` after the three bytes of its frame have been taken and the last gap has passed. -/
def frameSent (d : Byte) (s : State) : State :=
  { s with devAddr := d, txReady := true, txHist := s.txHist ++ s.frame.bytes, txi := 2, fsm := .settle }

theorem runsTo_byte_more (d : Byte) {s : State} (hf : s.fsm = .tx) (hi : s.txi.val < 2) :
    RunsTo s (List.replicate 2 (quiet d [])) 1
      (nextByte (txByte (frameByte s.frame s.txi) (applySample (quiet d []) s))) := by
  simpa [applySample, nextByte, quiet, txByte] using (runsTo_tx d [] hf).trans (runsTo_gap_more d [] rfl hi)

theorem runsTo_byte_last (d : Byte) {s : State} (hf : s.fsm = .tx) (hi : ¬ s.txi.val < 2) :
    RunsTo s (List.replicate 2 (quiet d [])) 1
      (enter .settle (txByte (frameByte s.frame s.txi) (applySample (quiet d []) s))) := by
  simpa [applySample, enter, quiet, txByte] using (runsTo_tx d [] hf).trans (runsTo_gap_last d [] rfl hi)

theorem runsTo_frameSent (d : Byte) {s : State} (hf : s.fsm = .tx) (hi : s.txi = 0) :
    RunsTo s (List.replicate 6 (quiet d [])) 3 (frameSent d s) := by
  have h0 := runsTo_byte_more d hf (by simp [hi])
  have h1 := h0.trans (runsTo_byte_more d rfl (by simp [hi]))
  have h2 := h1.trans (runsTo_byte_last d rfl (by simp [hi]))
  simpa [applySample, quiet, txByte, nextByte, enter, frameByte, frameSent, hi, Frame.bytes] using h2

/-- The script of a drained exchange up to its EVAL, which starts with the bytes `r` in the receive buffer. -/
def drainScript (d : Byte) (r rx : List Byte) : List Sample :=
  List.replicate 6 (quiet d []) ++ quiet d rx :: List.replicate ((r ++ rx).length + 1) (quiet d [])

/-- One more poll for each byte received before, and a sample for EVAL. -/
theorem drainedScript_append (d : Byte) (r rx : List Byte) :
    drainedScript d rx ++ List.replicate r.length (quiet d []) = drainScript d r rx ++ [quiet d []] := by
  have hlen : rx.length + 2 + r.length = (r ++ rx).length + 1 + 1 := by simp; omega
  simp [drainedScript, drainScript, List.replicate_append_replicate, ← List.replicate_succ', hlen]

theorem drainedScript_eq (d : Byte) (rx : List Byte) : drainedScript d rx = drainScript d [] rx ++ [quiet d []] := by
  simpa using drainedScript_append d [] rx

/-- `s` in the EVAL of a drained exchange that sent its frame and found what the receive buffer held and `rx`. -/
def exchanged (d : Byte) (rx : List Byte) (s : State) : State :=
  drained (s.rxBuf ++ rx) (popRx [] (frameSent d s))

theorem runsTo_exchanged (d : Byte) (rx : List Byte) {s : State} (hf : s.fsm = .tx) (hi : s.txi = 0)
    (hs : s.waitSel = .settle) (hd : s.drainEn = true) : RunsTo s (drainScript d s.rxBuf rx) 353 (exchanged d rx s) := by
  have hwait := runsTo_settle d rx (s := frameSent d s) rfl hs hd
  rw [drainStart_eq_holding] at hwait
  have hdrain := runsTo_drained d [] (s := enter .drain (applySample (quiet d rx) (frameSent d s))) rfl rfl
  have hrun := (runsTo_frameSent d hf hi).trans (hwait.trans hdrain)
  simpa [drainScript, exchanged, drained, drainEnd, holding, popRx, frameSent, enter, applySample, quiet] using hrun

/-- `s` in the EVAL of the wake toggle, the bytes `rx` waiting in the receive buffer behind those already there. -/
def toggled (d : Byte) (rx : List Byte) (s : State) : State := enter .eval (applySample (quiet d rx) (frameSent d s))

theorem runsTo_toggled (d : Byte) (rx : List Byte) {s : State} (hf : s.fsm = .tx) (hi : s.txi = 0)
    (hs : s.waitSel = .wake) (hd : s.drainEn = false) :
    RunsTo s (List.replicate 6 (quiet d []) ++ [quiet d rx]) 1003 (toggled d rx s) :=
  (runsTo_frameSent d hf hi).trans (runsTo_settle_toggle d rx (s := frameSent d s) rfl hs hd)

/-- Settles O51: the waits of the two exchanges, whose scripts leave EVAL's sample over. -/
theorem exchangeWaits : Obligations.ExchangeWaits := by
  intro s d l hf hi hrx
  refine ⟨fun hs hd => ?_, fun hs hd => ?_⟩
  · have h := (runsTo_exchanged d l hf hi hs hd).waits [quiet d []]
    rw [hrx, ← drainedScript_eq] at h
    have hlen : (drainScript d [] l).length = 8 + l.length := by simp [drainScript]; omega
    rwa [hlen] at h
  · have h := (runsTo_toggled d l hf hi hs hd).waits [quiet d []]
    simpa [toggleScript] using h

end Sys2Proof.Proofs
end

section
/-! Whole operations: the opening refresh, the exchanges that follow, and the registers of the last drain; WAKE (R111, R154,
R164). -/

namespace Sys2Proof.Proofs

open Sys2Proof.Machine Sys2Proof.Safety Sys2Proof.Laws

/-! An exchange with its EVAL. -/

section

variable (d : Byte) (rx : List Byte) {s u : State}

theorem runsTo_drainedExchange (hf : s.fsm = .tx) (hi : s.txi = 0) (hs : s.waitSel = .settle) (hd : s.drainEn = true)
    (hx : ∀ rest, evalArm (withEnv (exchanged d rx s) rest) = .next (withEnv u rest)) :
    RunsTo s (drainedScript d rx ++ List.replicate s.rxBuf.length (quiet d [])) 353 u := by
  rw [drainedScript_append]
  exact (runsTo_exchanged d rx hf hi hs hd).trans (runsTo_eval d [] rfl hx)

theorem runsTo_toggleExchange (hf : s.fsm = .tx) (hi : s.txi = 0) (hs : s.waitSel = .wake) (hd : s.drainEn = false)
    (hx : ∀ rest, evalArm (withEnv (toggled d rx s) rest) = .next (withEnv u rest)) :
    RunsTo s (toggleScript d rx) 1003 u := by
  have hsame : applySample (quiet d []) (toggled d rx s) = toggled d rx s := by
    simp [toggled, enter, applySample, quiet]
  have hrun := (runsTo_toggled d rx hf hi hs hd).trans (runsTo_eval d [] rfl (hsame.symm ▸ hx))
  rwa [List.append_assoc] at hrun

end

/-- `s` after it has accepted the operation `op` in mode `m` for the address `a`. -/
def opened (a : Byte) (op : HostOp) (m : Mode) (s : State) : State :=
  loadExchange .refA opcState (latchWord op m (applySample (quiet a []) s))

/-- An accepted word and its opening refresh, which finds the response `l`. -/
theorem runsTo_opening (a : Byte) (l : List Byte) {s u : State} {w : Byte} {i : Instr} {op : HostOp} {m : Mode}
    (hb : s.busy = false) (hrx : s.rxBuf = []) (hw : decodeHost w = .ok i) (ho : hostOperation i = some (op, m))
    (hx : ∀ rest, evalArm (withEnv (exchanged a l (opened a op m s)) rest) = .next (withEnv u rest)) :
    RunsTo s (presents a w :: drainedScript a l) 353 u := by
  have hrun : RunsTo (opened a op m s) _ 353 u :=
    runsTo_drainedExchange a l rfl rfl (by simp [opened]) (by simp [opened]) hx
  have hnone : (opened a op m s).rxBuf = [] := by simp [opened, quiet, hrx]
  rw [hnone, List.length_nil, List.replicate_zero, List.append_nil] at hrun
  simpa using (runsTo_presents hb hw ho a).trans hrun

/-! What a refresh makes of the bytes it has found (R127, R151). -/

theorem refreshByte_drained (l : List Byte) (s : State) : refreshByte (drained l s) = refreshCode l := by
  have hread : (drained l s).resp.read 2 = responseByte l 2 := read_responseMemory l 2
  cases hv : validResponse l <;> simp [refreshByte, refreshCode, hread, hv]

/-- The registers after an operation that ends with a decodeState of its last response. -/
theorem decoded_finish (c : OutcomeCode) (l : List Byte) (s : State) :
    Decoded (finish c (decodeResp (drained l s))) l (refreshCode l) where
  code := refreshByte_drained l s
  chkErr := rfl
  report := rfl
  resp i _ := read_responseMemory l i
  respLen := toNat_respLen_drained l s

/-! The operation in progress seen from the state that accepted its word. -/

/-- `t` is in the operation accepted in `s` for the address `a`: the frames `os` have been sent, and no measurement register
has been written. -/
structure Underway (s : State) (a : Byte) (os : List Byte) (t : State) : Prop where
  address : t.addrL = a
  irq : t.irqCount = s.irqCount
  sent : t.txHist = s.txHist ++ framesOf a os
  sticky : SameSticky s t
  measurements : SameMeasurements s t

section

variable {s t : State} {a : Byte} {os : List Byte}

theorem underway_latchWord (a : Byte) (op : HostOp) (m : Mode) (s : State) :
    Underway s a [] (latchWord op m (applySample (quiet a []) s)) := by
  constructor <;> simp [quiet, framesOf, SameSticky, SameMeasurements, samePm_iff, SameTh]

theorem Underway.decode (h : Underway s a os t) : Underway s a os (decodeResp t) :=
  { h with measurements := by simpa [SameMeasurements, samePm_iff, SameTh] using h.measurements }

/-- An exchange sends the frame it was started with, and nothing else (R148). -/
theorem Underway.send (h : Underway s a os t) (d o : Byte) (ph : Phase) :
    Underway s a (os ++ [o]) (frameSent d (loadExchange ph o t)) :=
  { h with
    sent := by
      simp [frameSent, buildCommand, Frame.bytes, framesOf, h.sent, h.address]
    measurements := by
      simpa [frameSent, SameMeasurements, samePm_iff, SameTh] using h.measurements }

theorem Underway.exchange (h : Underway s a os t) (d : Byte) (rx : List Byte) (o : Byte) (ph : Phase) :
    Underway s a (os ++ [o]) (exchanged d rx (loadExchange ph o t)) :=
  { h.send d o ph with
    measurements := by
      simpa [exchanged, drained, holding, SameMeasurements, samePm_iff, SameTh]
        using (h.send d o ph).measurements }

theorem Underway.toggle (h : Underway s a os t) (d : Byte) (rx : List Byte) (o : Byte) (ph : Phase) :
    Underway s a (os ++ [o]) (toggled d rx (loadExchange ph o t)) :=
  { h.send d o ph with
    measurements := by
      simpa [toggled, SameMeasurements, samePm_iff, SameTh] using (h.send d o ph).measurements }

theorem Underway.finish (h : Underway s a os t) (c : OutcomeCode) : Finished s (finish c t) a c os where
  idle := rfl
  busy := rfl
  done := rfl
  outcome := rfl
  irq := congrArg (· + 1) h.irq
  sent := h.sent
  sticky := h.sticky

end

/-- A run to an operation's end that decodes its last response and measures nothing, as the statements put it. -/
theorem RunsTo.operation {s t u : State} {script : List Sample} {ms : Nat} {a : Byte} {c : OutcomeCode}
    {os l : List Byte} (h : RunsTo s script ms (finish c (decodeResp t))) (ht : Underway s a os t)
    (hl : t = drained l u) :
    ∃ v, runScript (withEnv s script) = .next v ∧ Finished s v a c os ∧ Decoded v l (refreshCode l) ∧
      SameMeasurements s v := by
  have hdec : Decoded (finish c (decodeResp t)) l (refreshCode l) := hl ▸ decoded_finish c l u
  refine ⟨_, h.runScript_eq, { ht.decode.finish c with }, { hdec with }, ?_⟩
  simpa [withEnv, SameMeasurements, samePm_iff, SameTh] using ht.measurements

/-! WAKE. -/

section

variable {s : State}

theorem evalWakeRefA_awake (h : (refreshByte s).getLsbD 0 = false) :
    evalWakeRefA s = .next (finish .already (decodeResp s)) := by
  have hflag : flag .sleep (refreshByte s) = false := by rw [flag_sleep, h]
  simp [evalWakeRefA, decodeResp_eq_afterRefresh, afterRefresh_stateCode, hflag]

theorem evalWakeRefA_asleep (ho : s.opL = .wake) (h : (refreshByte s).getLsbD 0 = true) :
    evalWakeRefA s = .next (loadExchange .main opcToggle (decodeResp s)) := by
  have hflag : flag .sleep (refreshByte s) = true := by rw [flag_sleep, h]
  have hopc : opc (afterRefresh s).opL .main (afterRefresh s).modeL = some opcToggle := by
    rw [show (afterRefresh s).opL = .wake from ho]; rfl
  simp [evalWakeRefA, decodeResp_eq_afterRefresh, afterRefresh_stateCode, hflag, startExchange_main hopc]

end

/-- Settles O55: the opening refresh decides; the toggle's response waits in the receive buffer for the closing drain. -/
theorem wakeOperation : Obligations.WakeOperation := by
  intro s a l l' l'' hb hrx
  let refA := exchanged a l (opened a .wake .off s)
  have hrefA : refA = drained l (popRx [] (frameSent a (opened a .wake .off s))) := by
    simp [refA, exchanged, opened, quiet, hrx]
  have hunderA : Underway s a [opcState] refA := (underway_latchWord a .wake .off s).exchange a l opcState .refA
  have hcode (rest : List Sample) : refreshByte (withEnv refA rest) = refreshCode l := by
    rw [hrefA]
    exact refreshByte_drained l _
  refine ⟨fun hawake => ?_, fun hasleep => ?_⟩
  · have hrun : RunsTo s (presents a 0x03 :: drainedScript a l) 353 (finish .already (decodeResp refA)) :=
      runsTo_opening a l (i := .wake) hb hrx (by decide) rfl fun rest => by
        rw [evalArm_wakeRefA rfl rfl, evalWakeRefA_awake (by rwa [hcode])]
        rfl
    exact hrun.operation hunderA hrefA
  · let main := loadExchange .main opcToggle (decodeResp refA)
    let refB := loadExchange .refB opcState (toggled a l' main)
    have hopen : RunsTo s (presents a 0x03 :: drainedScript a l) 353 main :=
      runsTo_opening a l (i := .wake) hb hrx (by decide) rfl fun rest => by
        rw [evalArm_wakeRefA rfl rfl, evalWakeRefA_asleep rfl (by rwa [hcode])]
        rfl
    have htoggle : RunsTo main (toggleScript a l') 1003 refB :=
      runsTo_toggleExchange a l' rfl rfl rfl rfl fun rest => by rw [evalArm_wakeMain rfl rfl]; rfl
    have hclose := runsTo_drainedExchange a l'' (s := refB) (u := finish .ok (decodeResp (exchanged a l'' refB)))
      rfl rfl rfl rfl fun rest => by rw [evalArm_wakeRefB rfl rfl]; rfl
    have hkept : refB.rxBuf = l' := rfl
    have hunderB : Underway s a [opcState, opcToggle, opcState] (exchanged a l'' refB) :=
      (hunderA.decode.toggle a l' opcToggle .main).exchange a l'' opcState .refB
    have hrun := (hopen.trans htoggle).trans hclose
    rw [hkept, ← List.append_assoc] at hrun
    exact hrun.operation hunderB rfl

end Sys2Proof.Proofs
end

section
/-! Operations end: while every byte is taken and none arrives, each micro-step ends the operation or lowers its bound
(R108, R165). -/

namespace Sys2Proof.Proofs

open Sys2Proof.Machine Sys2Proof.Safety Sys2Proof.Laws

/-! The bound. -/

theorem operationBound_pos {s : State} (h : s.fsm ≠ .idle) : 0 < operationBound s := by
  cases hf : s.fsm
  case idle => exact absurd hf h
  all_goals simp [operationBound, exchangeBound, hf]

theorem operationBound_lt {s t : State} (hph : t.phase = s.phase) (hrx : t.rxBuf.length ≤ s.rxBuf.length)
    (hx : exchangeBound t < exchangeBound s) : operationBound t < operationBound s := by
  have hmul : phaseRank s.phase * (9 + t.rxBuf.length) ≤ phaseRank s.phase * (9 + s.rxBuf.length) :=
    Nat.mul_le_mul_left _ (by omega)
  unfold operationBound
  rw [hph]
  omega

/-- An exchange of a later phase, started in EVAL, fits into what the earlier phase allowed for it. -/
theorem operationBound_loadExchange_lt {s u : State} {ph : Phase} {o : Byte} (hf : s.fsm = .eval)
    (hrx : u.rxBuf = s.rxBuf) (hph : phaseRank ph < phaseRank s.phase) :
    operationBound (loadExchange ph o u) < operationBound s := by
  have hmul : (phaseRank ph + 1) * (9 + s.rxBuf.length) ≤ phaseRank s.phase * (9 + s.rxBuf.length) :=
    Nat.mul_le_mul_right _ hph
  simp only [operationBound, exchangeBound, loadExchange_fsm, loadExchange_txi, loadExchange_rxBuf, loadExchange_phase,
    hf, hrx] at hmul ⊢
  rw [Nat.add_one_mul] at hmul
  simp
  omega

/-! One micro-step. -/

/-- `t` is the end of the operation in progress in `s`. -/
def Ended (s t : State) : Prop :=
  t.busy = false ∧ t.done = true ∧ t.outcome ≠ .none ∧ t.irqCount = s.irqCount + 1

/-- `t` is nearer to the end of the operation in progress in `s`. -/
def Advanced (s t : State) : Prop :=
  t.busy = s.busy ∧ t.irqCount = s.irqCount ∧ operationBound t < operationBound s

theorem evalArm_advances {s t : State} (hf : s.fsm = .eval) (h : evalArm s = .next t) : Ended s t ∨ Advanced s t := by
  obtain ⟨c, hc, -, rfl⟩ | ⟨-, -, -, rfl⟩ | ⟨-, -, -, -, rfl⟩ | ⟨-, -, -, -, rfl⟩ | ⟨-, -, -, -, rfl⟩ |
    ⟨hp, o, -, rfl⟩ | ⟨hp, -, rfl⟩ | ⟨hp, -, -, -, rfl⟩ := evalArm_cases h
  · exact .inl ⟨rfl, rfl, hc, rfl⟩
  iterate 4 exact .inl ⟨rfl, rfl, nofun, rfl⟩
  all_goals exact .inr ⟨rfl, rfl, operationBound_loadExchange_lt hf rfl (by simp [hp, phaseRank])⟩

/-- Outside EVAL the exchange comes one step nearer to it while the transport takes its bytes. -/
theorem exchangeStep_advances {f : Frame} {s t : State} (h : exchangeStep f s = .next t) (hi : s.fsm ≠ .idle)
    (he : s.fsm ≠ .eval) (hr : s.txReady = true) : Advanced s t := by
  have htxi : s.txi.val < 3 := s.txi.isLt
  obtain ⟨hf, -⟩ | ⟨hf, -, rfl⟩ | ⟨-, hr', -⟩ | ⟨hf, hlt, rfl⟩ | ⟨hf, -, rfl⟩ | ⟨hf, -, rfl⟩ | ⟨hf, -, rfl⟩ |
    ⟨hf, b, rest, hb, -, rfl⟩ | ⟨hf, b, rest, hb, -, rfl⟩ | ⟨hf, hb, rfl⟩ := exchangeStep_cases h he
  · exact absurd hf hi
  · refine ⟨rfl, rfl, operationBound_lt rfl le_rfl ?_⟩
    simp [exchangeBound, hf]
    omega
  · simp [hr] at hr'
  · have hnext : (s.txi + 1).val = s.txi.val + 1 := by
      rw [Fin.val_add]
      exact Nat.mod_eq_of_lt (by simp; omega)
    refine ⟨rfl, rfl, operationBound_lt rfl le_rfl ?_⟩
    simp only [exchangeBound, hf, nextByte_fsm, nextByte_txi, nextByte_rxBuf, hnext]
    omega
  all_goals
    refine ⟨rfl, rfl, operationBound_lt rfl ?_ ?_⟩ <;> simp [exchangeBound, *]

/-- A proper state with an operation in progress takes a step, to a proper state, under a sample that takes every byte and
delivers none. -/
theorem step_quiet_advances {s : State} (d : Byte) (l : List Sample) (hinv : Inv s) (hb : s.busy = true) :
    ∃ t, step (withEnv s (quiet d [] :: l)) = .next (withEnv t l) ∧ Inv t ∧ (Ended s t ∨ Advanced s t) := by
  have hf : s.fsm ≠ .idle := hinv.busyIff.1 hb
  have hinv' : Inv (withEnv s (quiet d [] :: l)) := { hinv with }
  let u := applySample (quiet d []) (withEnv s l)
  have hbound : operationBound u = operationBound s := by
    simp [u, operationBound, exchangeBound, withEnv, quiet]
  have hstep := step_quiet hf d [] l
  have hkeep {t : State} (hx : exchangeStep s.frame u = .next t) :
      t.env = l ∧ (Ended u t ∨ Advanced u t) := by
    by_cases he : u.fsm = .eval
    · rw [exchangeStep_eval he] at hx
      obtain ⟨-, -, henv, -⟩ := (evalArm_keeps hx).world
      exact ⟨henv, evalArm_advances he hx⟩
    · obtain ⟨-, -, henv, -⟩ := (exchangeStep_keeps hx he).world
      exact ⟨henv, .inr (exchangeStep_advances hx hf he rfl)⟩
  obtain ⟨t, ht⟩ | ⟨-, -, hp⟩ := step_answers_or_stops (withEnv s (quiet d [] :: l))
  · obtain ⟨henv, hadv⟩ := hkeep (hstep.symm.trans ht)
    have htl : withEnv t l = t := by rw [← henv]; rfl
    refine ⟨t, htl.symm ▸ ht, stepKeepsTheStateProper _ _ hinv' ht, ?_⟩
    exact hadv.imp_right fun ⟨hbusy, hirq, hlt⟩ => ⟨hbusy, hirq, hbound ▸ hlt⟩
  · exact absurd (hinv.possible hb) (by simpa [withEnv] using hp)

/-- The operation in progress ends within its bound under any script long enough. -/
theorem operation_completes (d : Byte) (n : Nat) {s : State} (hinv : Inv s) (hb : s.busy = true)
    (hn : operationBound s ≤ n) :
    ∃ k t, k ≤ operationBound s ∧
      Sys2Proof.core.run k (withEnv s (List.replicate n (quiet d []))) = .next t ∧ Ended s t := by
  induction n generalizing s with
  | zero => exact absurd hn (Nat.not_le.2 (operationBound_pos (hinv.busyIff.1 hb)))
  | succ n ih =>
    obtain ⟨t, hstep, hinvt, hend | ⟨hbusy, hirq, hlt⟩⟩ :=
      step_quiet_advances d (List.replicate n (quiet d [])) hinv hb
    · exact ⟨1, _, operationBound_pos (hinv.busyIff.1 hb), run_succ hstep 0, hend⟩
    · have hbt : t.busy = true := hbusy.trans hb
      obtain ⟨k, u, hk, hrun, hend⟩ := ih hinvt hbt (by omega)
      refine ⟨k + 1, u, by omega, (run_succ hstep k).trans hrun, ?_⟩
      simpa only [Ended, hirq] using hend

/-- Settles O50. -/
theorem operationsComplete : Obligations.OperationsComplete := fun _ d hinv hb => operation_completes d _ hinv hb le_rfl

end Sys2Proof.Proofs
end

section
/-! The state decoder: the flags of a state value, the reports made of them, and the arm of GETSTATE
(R126, R127, R133, R152). -/

namespace Sys2Proof.Proofs

open Sys2Proof.Machine Sys2Proof.Laws

/-- Settles O18: the arm is the refresh of the state followed by the end with OK. -/
theorem getstateArmDecodesAndEnds : Obligations.GetstateArmDecodesAndEnds := by
  intro a c s hf ho hp
  rw [exec_eval rfl hf, evalArm_getState ho hp, evalGetState, decodeResp_eq_afterRefresh, finish_eq_afterFinish]
  rfl

/-! The flags (R24, R126). -/

/-- A mask is the power of two at the flag's index. -/
theorem flagMask_eq_twoPow (f : StateFlag) : flagMask f = BitVec.twoPow 8 (flagIndex f).val := rfl

/-- A mask has one bit, so the AND with it is that bit of the state value or nothing. -/
theorem flag_eq_getLsbD (f : StateFlag) (code : Byte) : flag f code = code.getLsbD (flagIndex f).val := by
  have hmask : BitVec.twoPow 8 (flagIndex f).val ≠ 0#8 := by cases f <;> decide
  rw [flag, flagMask_eq_twoPow, BitVec.twoPow_and]
  cases code.getLsbD (flagIndex f).val
  · rfl
  · simpa using hmask

/-- The test of R126, as a proposition. -/
theorem flag_eq_decide (f : StateFlag) (code : Byte) : flag f code = decide (flagMask f &&& code ≠ 0) :=
  Bool.eq_iff_iff.2 (bne_iff_ne.trans decide_eq_true_iff.symm)

theorem allFlags_getElem?_flagIndex (f : StateFlag) : allFlags[(flagIndex f).val]? = some f := by cases f <;> rfl

/-- Settles O25: the masks are the eight powers of two, and the list holds every flag at its index. -/
theorem flagIsItsBit : Obligations.FlagIsItsBit := fun code f =>
  ⟨flag_eq_decide f code, flag_eq_getLsbD f code, allFlags_getElem?_flagIndex f⟩

/-! The reports (R133). -/

theorem length_reportHead (s : State) : (reportHead s).length = if s.reportChkInvalid then 1 else 0 := by
  rw [reportHead]
  split <;> rfl

/-- One line per flag behind the head. -/
theorem length_allReport (s : State) : (allReport s).length = if s.reportChkInvalid then 9 else 8 := by
  rw [allReport, List.length_append, List.length_map, length_reportHead]
  split <;> rfl

/-- The set flags are some of the eight. -/
theorem length_activeReport_le (s : State) : (activeReport s).length ≤ 9 := by
  have hset : (allFlags.filter fun f => flag f s.stateCode).length ≤ 8 := List.length_filter_le _ allFlags
  rw [activeReport, List.length_append, List.length_map, length_reportHead]
  split <;> omega

/-- Settles O29: the reports are listed by the flags, and each flag is its bit. -/
theorem reportsListTheFlags : Obligations.ReportsListTheFlags := by
  intro s
  refine ⟨?_, ?_, length_allReport s, length_activeReport_le s⟩
  · simp only [allReport, reportHead, flag_eq_getLsbD]
  · simp only [activeReport, reportHead, flag_eq_getLsbD]

end Sys2Proof.Proofs
end

section
/-! Presentations and the channel micro-steps before the drain, whole next states (R101, R105, R140 to R145). -/

namespace Sys2Proof.Proofs

open Sys2Proof.Machine Sys2Proof.Safety Sys2Proof.Laws

/-! Host words. -/

/-- Settles O10: BUSY decides between acceptance and the drop. -/
theorem hostWordStartsItsOperation : Obligations.HostWordStartsItsOperation := by
  intro i op m s ho
  rw [exec_hostWord ho]
  exact ⟨fun hb => by rw [acceptWord_free hb, loadExchange_latchWord], acceptWord_busy⟩

/-- Settles O11: while BUSY the step's source is the port, whatever its byte decodes to. -/
theorem anyWordWhileBusyOnlySetsOverrun : Obligations.AnyWordWhileBusyOnlySetsOverrun := by
  intro s w hr hw hb
  rw [step_of_presented hr hw]
  exact runSource_port_busy (by simpa using hb)

/-! Wire commands. -/

/-- Settles O13: the transport's level decides between the byte and the stall. -/
theorem wireCommandSendsItsNextByte : Obligations.WireCommandSendsItsNextByte := by
  intro i f s hw hf
  rw [exec_wire hw, ← frameByte_eq]
  split
  next hr => exact exchangeStep_tx hf hr
  next hr => exact exchangeStep_tx_stall hf (by simpa using hr)

/-- Settles O14: the index of the byte just sent decides between the next one and the settle wait. -/
theorem gapLeadsToTheNextByte : Obligations.GapLeadsToTheNextByte := by
  intro i f s hw hf
  refine ⟨by simp [minWaitMs, hf, Config.tByteMs], ?_⟩
  rw [exec_wire hw]
  split
  next hi => exact exchangeStep_gap_more hf hi
  next hi => exact exchangeStep_gap_last hf hi

/-- Settles O15: `wait_sel` gives the wait, `drain_en` the control state after it. -/
theorem settleStartsTheDrain : Obligations.SettleStartsTheDrain := by
  intro i f s hw hf
  rw [exec_wire hw]
  refine ⟨?_, exchangeStep_settle_toggle hf, fun hd => ⟨_, exchangeStep_settle hf hd, read_nil, rfl⟩⟩
  cases hs : s.waitSel <;> simp [minWaitMs, hf, hs, Config.tSettleMs, Config.tWakeMs]

end Sys2Proof.Proofs
end

section
/-! The EVAL arms of SLEEP, TH and PM's MAIN, case by case, and the statements on the arms of SLEEP, WAKE and TH
(R153, R154, R155, R160). -/

namespace Sys2Proof.Proofs

open Sys2Proof.Machine Sys2Proof.Safety Sys2Proof.Laws

section

variable {s : State}

/-! The parts that arms share. -/

/-- decodeState reads no latch, so the MAIN exchange after it is that of the operation and mode in progress. -/
theorem startExchange_main_decodeResp {o : Byte} (h : opc s.opL .main s.modeL = some o) :
    startExchange .main (decodeResp s) = .next (loadExchange .main o (decodeResp s)) :=
  startExchange_main (s := decodeResp s) h

/-- After a valid checksum decodeState stores the response's own byte (R127). -/
theorem decodeResp_of_valid (h : s.chkErr = false) :
    decodeResp s = { s with reportChkInvalid := false, stateCode := s.resp.read 2 } := by
  simp [decodeResp, decodeState, decodedState, respState, stateIdx, h]

theorem isBusyCode_of_eq (h : s.resp.read 2 = 0x16) : isBusyCode (respState s) = true :=
  (isBusyCode_eq _).trans (decide_eq_true h)

theorem isBusyCode_of_ne (h : s.resp.read 2 ≠ 0x16) : isBusyCode (respState s) = false :=
  (isBusyCode_eq _).trans (decide_eq_false h)

/-! SLEEP. -/

theorem evalSleepRefA_asleep (h : (refreshByte s).getLsbD 0 = true) :
    evalSleepRefA s = .next (finish .already (decodeResp s)) := by
  have hflag : flag .sleep (decodeResp s).stateCode = true := (flag_sleep _).trans h
  exact if_pos hflag

theorem evalSleepRefA_awake (ho : s.opL = .sleep) (h : (refreshByte s).getLsbD 0 = false) :
    evalSleepRefA s = .next (loadExchange .main opcToggle (decodeResp s)) := by
  have hflag : flag .sleep (decodeResp s).stateCode = false := (flag_sleep _).trans h
  exact (if_neg (Bool.eq_false_iff.1 hflag)).trans (startExchange_main_decodeResp (by rw [ho]; rfl))

theorem evalSleepMain_invalid (h : s.chkErr = true) :
    evalSleepMain s = .next (loadExchange .refB opcState s) := by simp [evalSleepMain, h]

theorem evalSleepMain_valid (h : s.chkErr = false) : evalSleepMain s = .next (finish .ok (decodeResp s)) := by
  simp [evalSleepMain, h]

/-! TH. -/

theorem evalThRefA_gated (h : refreshByte s &&& 0x14 ≠ 0) :
    evalThRefA s = .next (finish .gated (decodeResp s)) := by
  have hgate : gateTh (decodeResp s).stateCode = true := (gateTh_eq _).trans (bne_iff_ne.mpr h)
  exact if_pos hgate

theorem evalThRefA_open (ho : s.opL = .th) (h : refreshByte s &&& 0x14 = 0) :
    evalThRefA s = .next (loadExchange .main opcTh (decodeResp s)) := by
  have hgate : gateTh (decodeResp s).stateCode = false := (gateTh_eq _).trans (bne_eq_false_iff_eq.mpr h)
  exact (if_neg (Bool.eq_false_iff.1 hgate)).trans (startExchange_main_decodeResp (by rw [ho]; rfl))

theorem evalThMain_invalid (h : s.chkErr = true) : evalThMain s = .next (finish .chkAbort s) := by
  simp [evalThMain, h]

theorem evalThMain_busy (hc : s.chkErr = false) (h : s.resp.read 2 = 0x16) :
    evalThMain s = .next (finish .busyCode (thBusy (decodeResp s))) := by
  simp [evalThMain, hc, isBusyCode_of_eq h]

theorem evalThMain_latches (hc : s.chkErr = false) (h : s.resp.read 2 ≠ 0x16) :
    evalThMain s = .next (finish .ok (thLatch (decodeResp s))) := by
  simp [evalThMain, hc, isBusyCode_of_ne h]

/-! PM. -/

theorem evalPmRefA_loads {m : Mode} (ho : s.opL = .pm) (hm : s.modeL = m) (h : refreshByte s &&& 0x85 = 0) :
    evalPmRefA s = .next (loadExchange .main (opcPm m) (decodeResp s)) := by
  have hwake : isWakeToggle (decodeResp s).opL .main = false := by simp [isWakeToggle, ho]
  rw [evalPmRefA_open ho h, hm, loadExchange_eq_afterStart hwake, decodeResp_eq_afterRefresh]

theorem evalPmMain_invalid (h : s.chkErr = true) : evalPmMain s = .next (finish .chkAbort s) := by
  simp [evalPmMain, h]

theorem evalPmMain_busy (hc : s.chkErr = false) (h : s.resp.read 2 = 0x16) :
    evalPmMain s = .next (loadExchange .refB opcState (pmBusy (decodeResp s))) := by
  simp [evalPmMain, hc, isBusyCode_of_eq h]

theorem evalPmMain_latches (hc : s.chkErr = false) (h : s.resp.read 2 ≠ 0x16) :
    evalPmMain s = .next (finish .ok (pmLatch s.modeL (decodeResp s))) := by
  simp [evalPmMain, hc, isBusyCode_of_ne h]

end

/-! The statements, arm by arm. -/

/-- Settles O19: F_SLEEP decides REF_A, the checksum of the toggle response MAIN. -/
theorem sleepArms : Obligations.SleepArms := by
  intro a c s hf ho
  rw [exec_eval rfl hf, exec_eval rfl hf]
  refine ⟨fun hp hflag => ?_, fun hp hflag => ?_, fun hp hc => ?_, fun hp hc => ?_, fun hp => ?_⟩
  · rw [evalArm_sleepRefA ho hp, evalSleepRefA_asleep hflag]
    rfl
  · rw [evalArm_sleepRefA ho hp, evalSleepRefA_awake ho hflag, loadExchange_eq_afterStart (by simp [isWakeToggle, ho])]
    rfl
  · rw [evalArm_sleepMain ho hp, evalSleepMain_invalid hc, loadExchange_eq_afterStart (by simp [isWakeToggle, ho])]
    rfl
  · rw [evalArm_sleepMain ho hp, evalSleepMain_valid hc, decodeResp_of_valid hc]
    rfl
  · rw [evalArm_sleepRefB ho hp]
    rfl

/-- Settles O20: F_SLEEP decides REF_A; the toggle alone waits long and does not drain. -/
theorem wakeArms : Obligations.WakeArms := by
  intro a c s hf ho
  rw [exec_eval rfl hf, exec_eval rfl hf]
  refine ⟨fun hp hflag => ?_, fun hp hflag => ?_, fun hp => ?_, fun hp => ?_⟩
  · rw [evalArm_wakeRefA ho hp, evalWakeRefA_awake hflag]
    rfl
  · rw [evalArm_wakeRefA ho hp, evalWakeRefA_asleep ho hflag]
    have hop : (afterRefresh s).opL = .wake := ho
    simp [loadExchange, hop, waitSelOf, drainEnOf, isWakeToggle, decodeResp_eq_afterRefresh, afterStart,
      buildCommand, opcToggle]
  · rw [evalArm_wakeMain ho hp, evalWakeMain, startExchange_refB,
      loadExchange_eq_afterStart (by simp [isWakeToggle])]
    rfl
  · rw [evalArm_wakeRefB ho hp]
    rfl

/-- Settles O24: the gate decides REF_A, the checksum and the busy code MAIN. -/
theorem thArms : Obligations.ThArms := by
  intro a c s hf ho
  rw [exec_eval rfl hf, exec_eval rfl hf]
  refine ⟨fun hp hg => ?_, fun hp hg => ?_, fun hp hc => ?_, fun hp hc hb => ?_, fun hp hc hb => ?_⟩
  · rw [evalArm_thRefA ho hp, evalThRefA_gated hg]
    rfl
  · rw [evalArm_thRefA ho hp, evalThRefA_open ho hg, loadExchange_eq_afterStart (by simp [isWakeToggle, ho])]
    rfl
  · rw [evalArm_thMain ho hp, evalThMain_invalid hc]
    rfl
  · rw [evalArm_thMain ho hp, evalThMain_busy hc hb, decodeResp_of_valid hc, hb]
    rfl
  · rw [evalArm_thMain ho hp, evalThMain_latches hc hb, decodeResp_of_valid hc]
    rfl

end Sys2Proof.Proofs
end

section
/-! What EVAL makes of the operation: its end, marked by `irq_done`, or an exchange of a later phase; and that a proper
state always has a next one (R149, R165, R201, R207). -/

namespace Sys2Proof.Proofs

open Sys2Proof.Machine Sys2Proof.Safety Sys2Proof.Laws

/-- An arm ends the operation with an outcome or starts an exchange of a later phase. -/
theorem evalArm_ends_or_starts {s t : State} (h : evalArm s = .next t) :
    (∃ c u, c ≠ .none ∧ u.irqCount = s.irqCount ∧ t = finish c u) ∨
    (∃ ph o u, phaseRank ph < phaseRank s.phase ∧ u.irqCount = s.irqCount ∧ u.busy = s.busy ∧
      t = loadExchange ph o u) := by
  obtain ⟨c, hc, -, rfl⟩ | ⟨-, -, -, rfl⟩ | ⟨-, -, -, -, rfl⟩ | ⟨-, -, -, -, rfl⟩ | ⟨-, -, -, -, rfl⟩ |
    ⟨hp, o, -, rfl⟩ | ⟨hp, -, rfl⟩ | ⟨hp, -, -, -, rfl⟩ := evalArm_cases h
  · exact .inl ⟨c, decodeResp s, hc, rfl, rfl⟩
  · exact .inl ⟨.chkAbort, s, nofun, rfl, rfl⟩
  · exact .inl ⟨.ok, pmLatch s.modeL (decodeResp s), nofun, rfl, rfl⟩
  · exact .inl ⟨.ok, thLatch (decodeResp s), nofun, rfl, rfl⟩
  · exact .inl ⟨.busyCode, thBusy (decodeResp s), nofun, rfl, rfl⟩
  · exact .inr ⟨.main, o, decodeResp s, by simp [hp, phaseRank], rfl, rfl, rfl⟩
  · exact .inr ⟨.refB, opcState, s, by simp [hp, phaseRank], rfl, rfl, rfl⟩
  · exact .inr ⟨.refB, opcState, pmBusy (decodeResp s), by simp [hp, phaseRank], rfl, rfl, rfl⟩

/-- Settles O35: the one stop of a step is EVAL at a pair that the invariant rules out. -/
theorem properStateNeverStops : Obligations.ProperStateNeverStops := by
  intro s hinv
  obtain hnext | ⟨-, hf, hp⟩ := step_answers_or_stops s
  · exact hnext
  · have hb : s.busy = true := hinv.busyIff.2 (by simp [hf])
    simp [hinv.possible hb] at hp

/-- Settles O46: of the four rows only an arm that ends the operation counts an event or clears BUSY. -/
theorem completionEventMarksTheEnd : Obligations.CompletionEventMarksTheEnd := by
  intro s t h
  cases step_row h with
  | reset hr => exact ⟨.inl (by simp), fun _ _ hr' => by simp [hr] at hr'⟩
  | port w _ _ hp => cases hp <;> simp +contextual
  | channel _ _ hf hx =>
    obtain ⟨hb, -, -, hirq⟩ := (exchangeStep_keeps hx (by simpa using hf)).completion
    exact ⟨.inl (by simpa using hirq), fun hbusy hfree => by simp [hb, hbusy] at hfree⟩
  | eval _ _ hf hx =>
    obtain ⟨c, u, hc, hirq, rfl⟩ | ⟨ph, o, u, -, hirq, hb, rfl⟩ := evalArm_ends_or_starts hx
    · have hcount : (finish c u).irqCount = s.irqCount + 1 := by simpa using hirq
      exact ⟨.inr ⟨hcount, hf, rfl, rfl, rfl, hc⟩, fun _ _ _ => hcount⟩
    · exact ⟨.inl (by simpa using hirq), fun hbusy hfree => by simp [hb, hbusy] at hfree⟩

/-- Settles O49: of the two rows of the FSM only an arm of EVAL starts an exchange. -/
theorem phasesOnlyAdvance : Obligations.PhasesOnlyAdvance := by
  intro s t h hr hw
  cases step_row h with
  | reset hr' => simp [hr] at hr'
  | port w _ hw' _ => simp [hw] at hw'
  | channel _ _ hf hx =>
    obtain ⟨hph, -⟩ := (exchangeStep_keeps hx (by simpa using hf)).exchange
    exact ⟨fun he => absurd he hf, fun _ => by simpa using hph⟩
  | eval _ _ hf hx =>
    refine ⟨fun _ => ?_, fun he => absurd hf he⟩
    obtain ⟨c, u, -, -, rfl⟩ | ⟨ph, o, u, hlt, -, -, rfl⟩ := evalArm_ends_or_starts hx
    · exact .inl rfl
    · exact .inr ⟨rfl, by simpa using hlt⟩

end Sys2Proof.Proofs
end

section
/-! Runs from one EVAL to the next, and the whole operations GETSTATE, SLEEP, PM and TH (R152, R153, R155 to R160,
R164). -/

namespace Sys2Proof.Proofs

open Sys2Proof.Machine Sys2Proof.Safety Sys2Proof.Laws

/-! An arm reads the block's own state, not the script. -/

theorem startExchange_withEnv (s : State) (rest : List Sample) (ph : Phase) :
    startExchange ph (withEnv s rest) = mapNext (withEnv · rest) (startExchange ph s) := by
  have hopc : opc (withEnv s rest).opL ph (withEnv s rest).modeL = opc s.opL ph s.modeL := rfl
  unfold startExchange
  rw [hopc]
  cases opc s.opL ph s.modeL <;> rfl

theorem evalArm_withEnv {s t : State} (h : evalArm s = .next t) (rest : List Sample) :
    evalArm (withEnv s rest) = .next (withEnv t rest) := by
  suffices evalArm (withEnv s rest) = mapNext (withEnv · rest) (evalArm s) by rw [this, h, mapNext_next]
  have hop : (withEnv s rest).opL = s.opL := rfl
  have hph : (withEnv s rest).phase = s.phase := rfl
  cases ho : s.opL <;> cases hp : s.phase
  all_goals
    simp only [evalArm, hop, hph, ho, hp, evalGetState, evalSleepRefA, evalSleepMain, evalSleepRefB, evalWakeRefA,
      evalWakeMain, evalWakeRefB, evalPmRefA, evalPmMain, evalPmRefB, evalThRefA, evalThMain, mapNext_ite,
      ← startExchange_withEnv] <;>
    rfl

/-! What the refresh and the gates say of a response. -/

theorem refreshCode_of_valid {l : List Byte} (h : validResponse l = true) : refreshCode l = responseByte l 2 := by
  simp [refreshCode, h]

/-- The forced state 0xFF is stopped by every gate that tests a bit, so behind one the response was valid. -/
theorem valid_of_gate_open {l : List Byte} {mask : Byte} (hmask : mask ≠ 0) (h : refreshCode l &&& mask = 0) :
    validResponse l = true := by
  by_contra hl
  have hforced : refreshCode l = BitVec.allOnes 8 := by simp [refreshCode, hl]
  rw [hforced, BitVec.allOnes_and] at h
  exact hmask h

/-! What a drained exchange up to its EVAL leaves of the state. -/

section

variable (d : Byte) (rx : List Byte) (s : State)

@[simp] theorem exchanged_opL : (exchanged d rx s).opL = s.opL := by simp [exchanged, drained, holding, frameSent]

@[simp] theorem exchanged_modeL : (exchanged d rx s).modeL = s.modeL := by
  simp [exchanged, drained, holding, frameSent]

@[simp] theorem exchanged_phase : (exchanged d rx s).phase = s.phase := by
  simp [exchanged, drained, holding, frameSent]

@[simp] theorem exchanged_rxBuf : (exchanged d rx s).rxBuf = [] := by simp [exchanged, drained, holding]

theorem sameDecoded_exchanged : SameDecoded s (exchanged d rx s) := by
  simp [SameDecoded, exchanged, drained, holding, frameSent]

end

/-! The state in which an arm of EVAL runs. -/

/-- `t` is in the phase `ph` of the operation `op` in mode `m` that was accepted in `s` for the address `a`: the frames
`os` have been sent, the last drain has found `l`, and no byte is left. -/
structure AtEval (s : State) (a : Byte) (op : HostOp) (m : Mode) (ph : Phase) (os l : List Byte) (t : State) :
    Prop where
  underway : Underway s a os t
  opL : t.opL = op
  modeL : t.modeL = m
  phase : t.phase = ph
  rxBuf : t.rxBuf = []
  found : ∃ u, t = drained l u

/-- A drained exchange leads there. -/
theorem Underway.atEval {s u : State} {a : Byte} {os : List Byte} (h : Underway s a os u) (hrx : u.rxBuf = [])
    (l : List Byte) (o : Byte) (ph : Phase) :
    AtEval s a u.opL u.modeL ph (os ++ [o]) l (exchanged a l (loadExchange ph o u)) where
  underway := h.exchange a l o ph
  opL := by simp
  modeL := by simp
  phase := by simp
  rxBuf := by simp
  found := ⟨popRx [] (frameSent a (loadExchange ph o u)), by simp [exchanged, hrx]⟩

section

variable {s t : State} {a : Byte} {op : HostOp} {m : Mode} {ph : Phase} {os l : List Byte}

theorem AtEval.read (h : AtEval s a op m ph os l t) (i : Nat) : t.resp.read i = responseByte l i := by
  obtain ⟨u, rfl⟩ := h.found
  exact read_responseMemory l i

theorem AtEval.chkErr (h : AtEval s a op m ph os l t) : t.chkErr = !validResponse l := by
  obtain ⟨u, rfl⟩ := h.found
  rfl

theorem AtEval.chkErr_of_valid (h : AtEval s a op m ph os l t) (hl : validResponse l = true) : t.chkErr = false := by
  rw [h.chkErr, hl]
  rfl

theorem AtEval.chkErr_of_invalid (h : AtEval s a op m ph os l t) (hl : validResponse l = false) : t.chkErr = true := by
  rw [h.chkErr, hl]
  rfl

theorem AtEval.refreshByte (h : AtEval s a op m ph os l t) : refreshByte t = refreshCode l := by
  obtain ⟨u, rfl⟩ := h.found
  exact refreshByte_drained l u

theorem AtEval.respWord (h : AtEval s a op m ph os l t) (k : Nat) : respWord t k = responseWord l k := by
  simp only [Machine.respWord, responseWord, h.read]

theorem AtEval.decoded (h : AtEval s a op m ph os l t) (c : OutcomeCode) :
    Decoded (finish c (decodeResp t)) l (refreshCode l) := by
  obtain ⟨u, rfl⟩ := h.found
  exact decoded_finish c l u

theorem AtEval.decoded_of_valid (h : AtEval s a op m ph os l t) (hl : validResponse l = true) (c : OutcomeCode) :
    Decoded (finish c (decodeResp t)) l (responseByte l 2) :=
  refreshCode_of_valid hl ▸ h.decoded c

end

/-! From an accepted word, and from one EVAL, to the next. -/

/-- An accepted word runs to the EVAL of its opening refresh, and on to what the arm answers there. -/
theorem runsTo_refA (a : Byte) (l : List Byte) {s : State} {w : Byte} {i : Instr} {op : HostOp} {m : Mode}
    (hb : s.busy = false) (hrx : s.rxBuf = []) (hw : decodeHost w = .ok i) (ho : hostOperation i = some (op, m)) :
    ∃ t, AtEval s a op m .refA [opcState] l t ∧
      ∀ {u}, evalArm t = .next u → RunsTo s (presents a w :: drainedScript a l) 353 u :=
  have hnone : (latchWord op m (applySample (quiet a []) s)).rxBuf = [] := by simp [quiet, hrx]
  ⟨_, (underway_latchWord a op m s).atEval hnone l opcState .refA, fun hx =>
    runsTo_opening a l hb hrx hw ho (evalArm_withEnv hx)⟩

/-- A run that has started a drained exchange goes on to its EVAL, where STATE_CODE and the report bit are still as the
last arm left them, and on to what the next arm answers. -/
theorem RunsTo.exchange {r s u : State} {script : List Sample} {ms : Nat} {a o : Byte} {op : HostOp} {m : Mode}
    {ph : Phase} {os : List Byte} (h : RunsTo r script ms (loadExchange ph o u)) (hu : Underway s a os u)
    (ho : u.opL = op) (hm : u.modeL = m) (hrx : u.rxBuf = []) (hd : isWakeToggle op ph = false) (l : List Byte) :
    ∃ t, AtEval s a op m ph (os ++ [o]) l t ∧ SameDecoded u t ∧
      ∀ {v}, evalArm t = .next v → RunsTo r (script ++ drainedScript a l) (ms + 353) v := by
  subst ho hm
  refine ⟨_, hu.atEval hrx l o ph, sameDecoded_exchanged a l (loadExchange ph o u), fun hx => h.trans ?_⟩
  have hrun := runsTo_drainedExchange a l (s := loadExchange ph o u) rfl rfl (by simp [waitSelOf, hd])
    (by simp [drainEnOf, hd]) (evalArm_withEnv hx)
  simpa [hrx] using hrun

/-- A run to an operation's end that decodes its last response and measures nothing. -/
theorem RunsTo.decodes {s t : State} {script : List Sample} {ms : Nat} {a : Byte} {c : OutcomeCode} {op : HostOp}
    {m : Mode} {ph : Phase} {os l : List Byte} (h : RunsTo s script ms (finish c (decodeResp t)))
    (ht : AtEval s a op m ph os l t) :
    ∃ v, runScript (withEnv s script) = .next v ∧ Finished s v a c os ∧ Decoded v l (refreshCode l) ∧
      SameMeasurements s v :=
  have ⟨_, hu⟩ := ht.found
  h.operation ht.underway hu

/-- A run to an abort: what the opening refresh decoded stays, and nothing is measured (R155 (b), R160 (b)). -/
theorem RunsTo.aborts {s t t' : State} {script : List Sample} {ms : Nat} {a : Byte} {op : HostOp} {m : Mode}
    {os os' l l' : List Byte} (h : RunsTo s script ms (finish .chkAbort t')) (ht : AtEval s a op m .refA os l t)
    (ht' : AtEval s a op m .main os' l' t') (hkeep : SameDecoded (decodeResp t) t') (hl : validResponse l = true)
    (hl' : validResponse l' = false) :
    ∃ v, runScript (withEnv s script) = .next v ∧ Finished s v a .chkAbort os' ∧ v.stateCode = refreshCode l ∧
      v.chkErr = true ∧ v.reportChkInvalid = false ∧ SameMeasurements s v := by
  obtain ⟨hcode, hreport⟩ := hkeep
  have hrep : t'.reportChkInvalid = false := by simp [hreport, decodeResp, ht.chkErr, hl]
  refine ⟨_, h.runScript_eq, { ht'.underway.finish .chkAbort with }, hcode.trans ht.refreshByte,
    ht'.chkErr_of_invalid hl', hrep, ?_⟩
  simpa [withEnv, SameMeasurements, samePm_iff, SameTh] using ht'.underway.measurements

/-! GETSTATE. -/

/-- Settles O53: the opening refresh is the whole operation. -/
theorem getstateOperation : Obligations.GetstateOperation := by
  intro s a l hb hrx
  obtain ⟨t, ht, hrun⟩ := runsTo_refA a l (w := 0x01) (i := .getstate) hb hrx (by decide) rfl
  exact (hrun (evalArm_getState ht.opL ht.phase)).decodes ht

/-! SLEEP. -/

/-- Settles O54: F_SLEEP after the opening refresh decides, then the checksum of the toggle response. -/
theorem sleepOperation : Obligations.SleepOperation := by
  intro s a l l' l'' hb hrx
  obtain ⟨t, ht, hrun⟩ := runsTo_refA a l (w := 0x02) (i := .sleep) hb hrx (by decide) rfl
  have hcode := ht.refreshByte
  have hopen (hawake : (refreshCode l).getLsbD 0 = false) :=
    (hrun ((evalArm_sleepRefA ht.opL ht.phase).trans (evalSleepRefA_awake ht.opL (hcode ▸ hawake)))).exchange
      ht.underway.decode ht.opL ht.modeL ht.rxBuf (by decide) l'
  refine ⟨fun hasleep => ?_, fun hawake hl' => ?_, fun hawake hl' => ?_⟩
  · have hend := hrun ((evalArm_sleepRefA ht.opL ht.phase).trans (evalSleepRefA_asleep (hcode ▸ hasleep)))
    exact hend.decodes ht
  · obtain ⟨t', ht', -, hrun'⟩ := hopen hawake
    have hend := hrun' ((evalArm_sleepMain ht'.opL ht'.phase).trans (evalSleepMain_valid (ht'.chkErr_of_valid hl')))
    rw [← refreshCode_of_valid hl']
    exact hend.decodes ht'
  · obtain ⟨t', ht', -, hrun'⟩ := hopen hawake
    have hmain := hrun' ((evalArm_sleepMain ht'.opL ht'.phase).trans (evalSleepMain_invalid (ht'.chkErr_of_invalid hl')))
    obtain ⟨t'', ht'', -, hrun''⟩ :=
      hmain.exchange ht'.underway ht'.opL ht'.modeL ht'.rxBuf (by decide) l''
    exact (hrun'' (evalArm_sleepRefB ht''.opL ht''.phase)).decodes ht''

/-! TH. -/

/-- Settles O57: the gate decides after the opening refresh, the checksum and the busy code after CMD_TH. -/
theorem thOperation : Obligations.ThOperation := by
  intro s a l l' hb hrx
  obtain ⟨t, ht, hrun⟩ := runsTo_refA a l (w := 0x05) (i := .th) hb hrx (by decide) rfl
  have hcode := ht.refreshByte
  have hopen (hgate : refreshCode l &&& 0x14 = 0) :=
    (hrun ((evalArm_thRefA ht.opL ht.phase).trans (evalThRefA_open ht.opL (hcode ▸ hgate)))).exchange
      ht.underway.decode ht.opL ht.modeL ht.rxBuf (by decide) l'
  refine ⟨fun hgate => ?_, fun hgate hl' => ?_, fun hgate hl' hbyte => ?_, fun hgate hl' hbyte => ?_⟩
  · have hend := hrun ((evalArm_thRefA ht.opL ht.phase).trans (evalThRefA_gated (hcode ▸ hgate)))
    exact hend.decodes ht
  · obtain ⟨t', ht', hkeep, hrun'⟩ := hopen hgate
    have hend := hrun' ((evalArm_thMain ht'.opL ht'.phase).trans (evalThMain_invalid (ht'.chkErr_of_invalid hl')))
    exact hend.aborts ht ht' hkeep (valid_of_gate_open (by decide) hgate) hl'
  · obtain ⟨t', ht', -, hrun'⟩ := hopen hgate
    have hread : t'.resp.read 2 = 0x16 := (ht'.read 2).trans hbyte
    have hend := hrun' ((evalArm_thMain ht'.opL ht'.phase).trans (evalThMain_busy (ht'.chkErr_of_valid hl') hread))
    obtain ⟨hpm, hth, hmode, -⟩ := ht'.underway.measurements
    have hdec := ht'.decoded_of_valid hl' .busyCode
    rw [hbyte] at hdec
    exact ⟨_, hend.runScript_eq, { ht'.underway.finish .busyCode with }, { hdec with }, rfl, { hpm with }, hth, hmode⟩
  · obtain ⟨t', ht', -, hrun'⟩ := hopen hgate
    have hread : t'.resp.read 2 ≠ 0x16 := (ht'.read 2).trans_ne hbyte
    have hend := hrun' ((evalArm_thMain ht'.opL ht'.phase).trans (evalThMain_latches (ht'.chkErr_of_valid hl') hread))
    obtain ⟨hpm, -, hmode, -⟩ := ht'.underway.measurements
    exact ⟨_, hend.runScript_eq, { ht'.underway.finish .ok with }, { ht'.decoded_of_valid hl' .ok with }, rfl,
      ht'.respWord tOffset, ht'.respWord hOffset, { hpm with }, hmode⟩

/-! PM. -/

/-- Nothing but NO_MEAS changes while the operation goes on behind the busy code (R183). -/
theorem Underway.pmBusy {s t : State} {a : Byte} {os : List Byte} (h : Underway s a os t) :
    Underway (pmBusy s) a os (pmBusy t) :=
  { h with
    measurements := by
      obtain ⟨hpm, hth, hmode, -⟩ := h.measurements
      exact ⟨{ hpm with }, hth, hmode, rfl⟩ }

/-- Settles O56: the gate decides after the opening refresh, the checksum and the busy code after the mode's command. -/
theorem pmOperation : Obligations.PmOperation := by
  intro s a m l l' l'' hb hrx w o
  have hw : decodeHost w = .ok (.pmWord m) := decodeHost_hostWord (op := .pm) (hostOperation_pmWord m)
  have ho : o = opcPm m := by cases m <;> rfl
  rw [ho]
  obtain ⟨t, ht, hrun⟩ := runsTo_refA a l hb hrx hw (hostOperation_pmWord m)
  have hcode := ht.refreshByte
  have hopen (hgate : refreshCode l &&& 0x85 = 0) :=
    (hrun ((evalArm_pmRefA ht.opL ht.phase).trans (evalPmRefA_loads ht.opL ht.modeL (hcode ▸ hgate)))).exchange
      ht.underway.decode ht.opL ht.modeL ht.rxBuf (by decide) l'
  refine ⟨fun hgate => ?_, fun hgate hl' => ?_, fun hgate hl' hbyte => ?_, fun hgate hl' hbyte => ?_⟩
  · have hend := hrun ((evalArm_pmRefA ht.opL ht.phase).trans (evalPmRefA_gated (hcode ▸ hgate)))
    exact hend.decodes ht
  · obtain ⟨t', ht', hkeep, hrun'⟩ := hopen hgate
    have hend := hrun' ((evalArm_pmMain ht'.opL ht'.phase).trans (evalPmMain_invalid (ht'.chkErr_of_invalid hl')))
    exact hend.aborts ht ht' hkeep (valid_of_gate_open (by decide) hgate) hl'
  · obtain ⟨t', ht', -, hrun'⟩ := hopen hgate
    have hread : t'.resp.read 2 = 0x16 := (ht'.read 2).trans hbyte
    have hmain := hrun' ((evalArm_pmMain ht'.opL ht'.phase).trans (evalPmMain_busy (ht'.chkErr_of_valid hl') hread))
    obtain ⟨t'', ht'', -, hrun''⟩ :=
      hmain.exchange ht'.underway.decode.pmBusy ht'.opL ht'.modeL ht'.rxBuf (by decide) l''
    have hend := hrun'' (evalArm_pmRefB ht''.opL ht''.phase)
    obtain ⟨hpm, hth, hmode, hmeas⟩ := ht''.underway.measurements
    exact ⟨_, hend.runScript_eq, { ht''.underway.finish .busyCode with }, { ht''.decoded .busyCode with }, hmeas,
      { hpm with }, hth, hmode⟩
  · obtain ⟨t', ht', -, hrun'⟩ := hopen hgate
    have hread : t'.resp.read 2 ≠ 0x16 := (ht'.read 2).trans_ne hbyte
    have hend := hrun' ((evalArm_pmMain ht'.opL ht'.phase).trans (evalPmMain_latches (ht'.chkErr_of_valid hl') hread))
    obtain ⟨-, hth, -, -⟩ := ht'.underway.measurements
    exact ⟨_, hend.runScript_eq, { ht'.underway.finish .ok with }, { ht'.decoded_of_valid hl' .ok with }, rfl,
      ht'.modeL, ht'.respWord 3, ht'.respWord 5, ht'.respWord 7, ht'.respWord 9, ht'.respWord 11, ht'.respWord 13, hth⟩

end Sys2Proof.Proofs
end

section
/-! The measurement decoder: the particulate commands in the MAIN arm of PM and the density views (R155, R181 to R184). -/

namespace Sys2Proof.Proofs

open Sys2Proof.Machine Sys2Proof.Laws

/-! PM, MAIN. -/

theorem wireFrame_of_isPmCommand {i : Instr} (h : isPmCommand i) : ∃ f, i.wireFrame = some f := by
  obtain ⟨a, c, rfl | rfl | rfl | rfl⟩ := h <;> exact ⟨_, rfl⟩

/-- In the MAIN arm the four particulate commands mean the same: the mode is read from its latch, not from the opcode
(R147). -/
theorem exec_pmMain {i : Instr} {s : State} (hi : isPmCommand i) (hf : s.fsm = .eval) (ho : s.opL = .pm)
    (hp : s.phase = .main) : exec i s = evalPmMain s := by
  obtain ⟨f, hw⟩ := wireFrame_of_isPmCommand hi
  rw [exec_eval hw hf, evalArm_pmMain ho hp]

/-- Settles O22: a valid response that is not the busy code takes the arm's last branch, the latch. -/
theorem pmMainLatchesTheWindows : Obligations.PmMainLatchesTheWindows := by
  intro i s hi hf ho hp hc hb
  rw [exec_pmMain hi hf ho hp, evalPmMain_latches hc hb, decodeResp_of_valid hc]
  rfl

/-- Settles O23: a failed checksum takes the arm's first branch, before the busy test; the busy code takes its second. -/
theorem pmMainAbortsOrReportsBusy : Obligations.PmMainAbortsOrReportsBusy := by
  intro i s hi hf ho hp
  rw [exec_pmMain hi hf ho hp]
  refine ⟨fun hc => ?_, fun hc hb => ?_⟩
  · rw [evalPmMain_invalid hc, finish_eq_afterFinish]
  · have hstart : isWakeToggle (pmBusy (decodeResp s)).opL .refB = false := by simp [isWakeToggle]
    rw [evalPmMain_busy hc hb, loadExchange_eq_afterStart hstart, decodeResp_of_valid hc, hb]
    rfl

/-! The density views (R182). -/

theorem density_toNat (raw : Half) : (density raw).toNat = raw.toNat / 10 := BitVec.toNat_udiv

/-- 6553 is the largest 16-bit word divided by 10. -/
theorem density_toNat_le (raw : Half) : (density raw).toNat ≤ 6553 := by
  have hraw : raw.toNat < 65536 := raw.isLt
  rw [density_toNat]
  omega

/-- Settles O28: the three indexes read the density views of their channels. -/
theorem densityTruncates : Obligations.DensityTruncates := fun _ =>
  ⟨density_toNat _, density_toNat _, density_toNat _, density_toNat_le _, density_toNat_le _, density_toNat_le _⟩

end Sys2Proof.Proofs
end

section
/-! The conditions of R200 that the FSM detects, and what the micro-step that detects one records (R202, R205). -/

namespace Sys2Proof.Proofs

open Sys2Proof.Machine Sys2Proof.Safety Sys2Proof.Laws

section

variable {s t : State}

/-! Where each condition is detected. -/

theorem refreshed_eq_refreshByte (s : State) : refreshed s = refreshByte s := rfl

theorem fsmDetects_chksumInvalid_iff :
    fsmDetects s .chksumInvalid = true ↔ s.fsm = .drain ∧ s.rxBuf = [] ∧ s.sum ≠ 0 := by
  simp [fsmDetects, and_assoc]

theorem fsmDetects_busyCode_iff :
    fsmDetects s .busyCode = true ↔
      s.fsm = .eval ∧ (s.opL = .pm ∨ s.opL = .th) ∧ s.phase = .main ∧ s.chkErr = false ∧ s.resp.read 2 = 0x16 := by
  simp [fsmDetects, isBusyCode_eq, respState, stateIdx, and_assoc]

theorem fsmDetects_gated_iff :
    fsmDetects s .gated = true ↔
      s.fsm = .eval ∧ s.phase = .refA ∧
        (s.opL = .pm ∧ refreshByte s &&& 0x85 ≠ 0 ∨ s.opL = .th ∧ refreshByte s &&& 0x14 ≠ 0) := by
  simp [fsmDetects, refreshed_eq_refreshByte, gatePm_eq, gateTh_eq, and_assoc]

theorem fsmDetects_already_iff :
    fsmDetects s .already = true ↔
      s.fsm = .eval ∧ s.phase = .refA ∧
        (s.opL = .sleep ∧ (refreshByte s).getLsbD 0 = true ∨ s.opL = .wake ∧ (refreshByte s).getLsbD 0 = false) := by
  simp [fsmDetects, refreshed_eq_refreshByte, flag_sleep, and_assoc]

/-! What the detecting micro-step records. -/

theorem exchangeStep_records_chksumInvalid {f : Frame} (h : exchangeStep f s = .next t)
    (hd : fsmDetects s .chksumInvalid = true) : t.chkErr = true := by
  obtain ⟨hf, hb, hsum⟩ := fsmDetects_chksumInvalid_iff.1 hd
  rw [exchangeStep_drain_end hf hb] at h
  cases h
  exact bne_iff_ne.2 hsum

theorem evalArm_records_busyCode (h : evalArm s = .next t) (hd : fsmDetects s .busyCode = true) :
    t.noMeas = true ∧ (s.opL = .th → t.outcome = .busyCode) := by
  obtain ⟨-, ho, hp, hc, hb⟩ := fsmDetects_busyCode_iff.1 hd
  refine ⟨by rw [evalArm_noMeas h, if_pos ⟨ho, hp, hc⟩, isBusyCode_of_eq hb], fun hth => ?_⟩
  rw [evalArm_thMain hth hp, evalThMain_busy hc hb] at h
  cases h
  rfl

/-- Both gates end the operation behind the same refresh. -/
theorem evalArm_gated (hd : fsmDetects s .gated = true) : evalArm s = .next (finish .gated (decodeResp s)) := by
  obtain ⟨-, hp, ⟨ho, hg⟩ | ⟨ho, hg⟩⟩ := fsmDetects_gated_iff.1 hd
  · exact (evalArm_pmRefA ho hp).trans (evalPmRefA_gated hg)
  · exact (evalArm_thRefA ho hp).trans (evalThRefA_gated hg)

/-- SLEEP of a sleeping sensor and WAKE of an awake one end the operation behind the same refresh. -/
theorem evalArm_already (hd : fsmDetects s .already = true) : evalArm s = .next (finish .already (decodeResp s)) := by
  obtain ⟨-, hp, ⟨ho, hflag⟩ | ⟨ho, hflag⟩⟩ := fsmDetects_already_iff.1 hd
  · exact (evalArm_sleepRefA ho hp).trans (evalSleepRefA_asleep hflag)
  · exact (evalArm_wakeRefA ho hp).trans (evalWakeRefA_awake hflag)

/-- Every arm of a refresh decodes its response, whatever it does then (R127, R151). -/
theorem evalArm_refresh_decoded (h : evalArm s = .next t) (hp : s.phase ≠ .main) :
    t.stateCode = refreshByte s ∧ t.reportChkInvalid = s.chkErr := by
  obtain ⟨c, -, -, rfl⟩ | ⟨hm, -⟩ | ⟨hm, -⟩ | ⟨hm, -⟩ | ⟨hm, -⟩ | ⟨-, o, -, rfl⟩ | ⟨hm, -⟩ | ⟨hm, -⟩ := evalArm_cases h
  case inl | inr.inr.inr.inr.inr.inl => exact ⟨rfl, rfl⟩
  all_goals exact absurd hm hp

end

/-- Settles O48: the drain detects the failed checksum, an arm of EVAL every other condition. -/
theorem detectedConditionsAreRecorded : Obligations.DetectedConditionsAreRecorded := by
  intro i f s t hw h
  rw [exec_wire hw] at h
  have harm (he : s.fsm = .eval) : evalArm s = .next t := (exchangeStep_eval he).symm.trans h
  refine ⟨exchangeStep_records_chksumInvalid h, fun hd => ?_, fun hd => ?_, fun hd => ?_, fun he hp hc => ?_⟩
  · obtain ⟨he, -⟩ := fsmDetects_busyCode_iff.1 hd
    exact evalArm_records_busyCode (harm he) hd
  · obtain ⟨he, -⟩ := fsmDetects_gated_iff.1 hd
    cases (evalArm_gated hd).symm.trans (harm he)
    exact ⟨rfl, rfl⟩
  · obtain ⟨he, -⟩ := fsmDetects_already_iff.1 hd
    cases (evalArm_already hd).symm.trans (harm he)
    exact ⟨rfl, rfl⟩
  · obtain ⟨hcode, hreport⟩ := evalArm_refresh_decoded (harm he) hp
    exact ⟨hcode.trans (if_pos hc), hreport.trans hc⟩

end Sys2Proof.Proofs
end

section
/-! Reset takes precedence over every other event of its micro-step (R206, R230, R232). -/

namespace Sys2Proof.Proofs

open Sys2Proof.Machine Sys2Proof.Safety Sys2Proof.Laws

/-- With reset a step resets the state at the head of the micro-step, and no source runs. -/
theorem step_of_reset {s : State} (h : (nextSample s).rst = true) : step s = .next (resetBlock (sampled s)) :=
  if_pos h

/-- Settles O7: the reset keeps the receive buffer and the histories of the state at the head of the micro-step, and clears
BUSY, on which alone acceptance depends. -/
theorem resetBeatsEverything : Obligations.ResetBeatsEverything := by
  intro s hr
  refine ⟨_, step_of_reset hr, atReset_resetBlock _, ?_, ?_, ?_, fun i op m ho => ?_⟩
  · rw [resetBlock_txHist, sampled_txHist]
  · rw [resetBlock_irqCount, sampled_irqCount]
  · rw [resetBlock_rxBuf, sampled_rxBuf]
  · obtain ⟨haccept, -⟩ := hostWordStartsItsOperation i op m (resetBlock (sampled s)) ho
    exact ⟨_, haccept (resetBlock_busy _), rfl, rfl, rfl, rfl⟩

end Sys2Proof.Proofs
end
